-- ==== Sys2Proof/Word.lean ====
section
/-! DEFINITION. Word.lean: the word types of the KW-4816. -/

namespace Sys2Proof

/-- A host bus word (04, Model: every access transfers 16 bits). -/
abbrev Word := BitVec 16

/-- A byte of the EEPROM or of the shadow SRAM. -/
abbrev Byte := BitVec 8

/-- A 32-bit value: a forme instruction word, a coefficient, a seconds count. -/
abbrev W32 := BitVec 32

/-- A channel number, 0 to 3. -/
abbrev Chan := Fin 4

/-- A Galley station address, 0 (the HUB) to 15. -/
abbrev Station := Fin 16

/-- Bit `i` of a word. -/
abbrev bitOf {w : Nat} (v : BitVec w) (i : Nat) : Bool := v.getLsbD i

/-- The field of `n` bits from bit `lo` of a word, as a number. -/
abbrev fieldOf {w : Nat} (v : BitVec w) (lo n : Nat) : Nat := v.toNat / 2 ^ lo % 2 ^ n

/-- A flag as a number, 0 or 1. -/
abbrev flag (b : Bool) : Nat := if b then 1 else 0

end Sys2Proof
end

