-- ==== Sys2Proof/Syntax.lean ====
section
/-! DEFINITION. Syntax.lean: the commands of the KW-4816, one constructor for each row of spec/opcode_table.json,
and the operands they carry. A row that is a register write carries the word written. A row that is an event of the
environment carries what the environment shows the device at that moment. -/

namespace Sys2Proof

/-- One host bus access (R106): the register address A[6:1], and the data of a write. -/
inductive Access where
  | read (a : BitVec 6)
  | write (a : BitVec 6) (v : Word)
deriving DecidableEq, Repr

/-- What steps 1 to 4 of Sequence 03-1 find: the other supplies, the TEST pin, and the outcomes of the start-up self tests
(R139), 1 = failed. -/
structure PowerEnv where
  /-- VDDIO present (R428, R432: supplies come in any order). -/
  vddio : Bool
  /-- VBAT present (R81, R434). -/
  vbat : Bool
  /-- Level of the TEST pin (R345). -/
  test : Bool
  /-- ROM signature differs (event 3D0h). -/
  romBad : Bool
  /-- SHA-256 known-answer test failed (event 3D1h). -/
  shaBad : Bool
  /-- HMAC-SHA-256 or AES-128-CMAC known-answer test failed (event 3D2h). -/
  macBad : Bool
deriving DecidableEq, Repr

/-- Pins and supplies at internal reset release (R74, R451, R452). -/
structure ReleaseEnv where
  /-- Level of the ROLE strap: high is a NODE (R284). -/
  role : Bool
  /-- Level of the BUSMODE strap (R104). -/
  busmode : Bool
  /-- VDD at or above the release point of its monitor (R451). -/
  vddOk : Bool
  /-- PFI above V_PFI (Table 04-12, PFIOK). -/
  pfiOk : Bool
  /-- AVDD within 4.70 V to 5.30 V (R452, Table 06-13). -/
  avddOk : Bool
  /-- Level of the TEST pin (R453). -/
  test : Bool
deriving DecidableEq, Repr

/-- A switchover of the BKP supply (R65). -/
structure SupplySwitch where
  /-- To VDD, which rises through 2.75 V; else to VBAT, as VDD falls through 2.65 V. -/
  toVdd : Bool
  /-- VBAT present at the switchover (R87, R434). -/
  vbat : Bool
deriving DecidableEq, Repr

/-- The excitation of one channel as its leads show it, in microvolts (R165, R173). -/
structure BridgeReading where
  /-- Sum of the driver and lead drops. -/
  drops : Nat
  /-- The lead drops EXCP − SENP and SENN − EXCN (A, 2, A, 3). -/
  leadP : Int
  leadN : Int
  /-- How far a sense loop that regulates is off its target. -/
  offTarget : Int
  /-- The bridge itself is off a sense lead, so that the loop has no hold on it: what SENP − SENN then shows. -/
  openSense : Option Nat
deriving DecidableEq, Repr

/-- What one channel shows in one mt (R171, R173, R476). -/
structure ChanInput where
  /-- INP − INN at the pins, in nanovolts. -/
  input : Int
  /-- How far the modulator's sample is off that of an ideal converter, on the stream scale of R192 (2^38 = FS), ahead of the
  Kern correction. -/
  noise : Int
  /-- DAC elements in use at the sample: bit e is u_e (09, Principle). -/
  elems : BitVec 16
  /-- The excitation at the sense pins (A, 1 to A, 3; A, 5). -/
  bridge : BridgeReading
  /-- The driver is at its current limit (A, 0). -/
  atLimit : Bool
  /-- The driver is in thermal shutdown (A, 7). -/
  thermal : Bool
  /-- INP or INN lies outside VCM ± 0.75 V (B, 1). -/
  cmOut : Bool
  /-- The integrator limit is reached though the input is within the linear limit (B, 3). -/
  integrator : Bool
deriving DecidableEq, Repr

/-- What arrives with one sample set (R190, R139). -/
structure TurnInput where
  /-- The number the MOD domain gave the sample set (R139). -/
  setNo : Nat
  /-- The four channels. -/
  ch : Vector ChanInput 4
  /-- AVDD in microvolts (R165, A, 6). -/
  avdd : Nat
  /-- Parity errors found in this turn: bits 0 to 15 are events 3C0h to 3CFh, bit 16 is event 3E2h (Table 05-2). -/
  parity : BitVec 17
  /-- A program part overran its turn (event 3D4h). -/
  overrun : Bool
deriving DecidableEq, Repr

/-- The monitor reading of one channel in the last mt of a gap (R168, Table 06-8). -/
structure GapReading where
  /-- AVDD in microvolts. -/
  avdd : Nat
  /-- The excitation at the sense pins (A, 1 to A, 3). -/
  bridge : BridgeReading
  /-- The sensed polarity has not reversed (A, 4). -/
  notReversed : Bool
  /-- The input-open test moved the value by more than 25 % of FS (B, 0). -/
  openMoved : Bool
deriving DecidableEq, Repr

/-- The end of one temperature conversion (R172, R261). -/
structure TempReading where
  /-- The conversion completed in its 50 ms. -/
  done : Bool
  /-- External pair open (B, 12) or shorted (B, 13). -/
  isOpen : Bool
  isShort : Bool
  /-- The reading, signed, 0.01 °C. -/
  value : Word
deriving DecidableEq, Repr

/-- What holds LOOPI of a loop beside the loop itself (R318, R319). -/
inductive LoopHold where
  | free | high | low
  /-- between the thresholds -/
  | between
deriving DecidableEq, Repr

/-- One loop in a pass: the resistance from LOOPO to LOOPI in ohms, none where the loop is open, and what else holds LOOPI. -/
structure LoopReading where
  ohms : Option Nat
  hold : LoopHold
deriving DecidableEq, Repr

/-- One switch input under test current (R318, R319). -/
structure SwitchReading where
  /-- The pin is above 0.3 V_BK. -/
  above : Bool
  /-- The current into the pin, in nanoamperes. -/
  current : Nat
deriving DecidableEq, Repr

/-- What one Frisket pass sees (R318, R326, R330). -/
structure PassReading where
  /-- The main-power timing of 98,304 st is available (R326). -/
  sysTimed : Bool
  loop : Vector LoopReading 4
  /-- CASE[0], CASE[1], CALSW. -/
  switch : Vector SwitchReading 3
  /-- Detectors A and B of VBAT low, temperature, LFXO stopped. -/
  envA : Vector Bool 3
  envB : Vector Bool 3
  /-- VBAT in mV (R330). -/
  vbatMv : Word
deriving DecidableEq, Repr

/-- A frame as received: header, body, MAC and CRC (R290). -/
structure Frame where
  header : Word
  body : List Word
  mac : W32
  crc : Word
deriving DecidableEq, Repr

/-- What refresh finds at the margin level (R367). -/
structure MarginReading where
  /-- Some word reads differently at the margin level than at the normal level. -/
  weak : Bool
deriving DecidableEq, Repr

/-- The levels at the pins that the boundary-scan cells observe (Table 14-14): the board's at the digital inputs and the PFI
comparator, and the device's own within an access and within a frame, which the model takes in one step (log entry 46). -/
structure PinLevels where
  d : Word
  /-- A[6:1], A[1] in bit 0. -/
  a : BitVec 6
  cs : Bool
  rd : Bool
  wr : Bool
  rst : Bool
  busmode : Bool
  /-- The output of the PFI comparator. -/
  pfi : Bool
  sync : Bool
  glrx : Bool
  role : Bool
  /-- RDY, GLTX and GLDE where the device drives them. -/
  rdy : Bool
  gltx : Bool
  glde : Bool
deriving DecidableEq, Repr

/-- One cycle of TCK (IEEE 1149.1): TMS and TDI at its rising edge, and the pins at that moment. -/
structure TckCycle where
  tms : Bool
  tdi : Bool
  pins : PinLevels
deriving DecidableEq, Repr

/-- What the TAP controller reaches (R342, R343). -/
inductive TapEvent where
  | updateIr (ir : Byte)
  | testLogicReset
deriving DecidableEq, Repr

/-- The TCK cycles since the TAP controller was last seen, and what it has now reached. -/
structure TapUpdate where
  scan : List TckCycle
  reached : TapEvent
deriving DecidableEq, Repr

/-- The commands: the rows of spec/opcode_table.json, in its order. -/
inductive Instr where
  | powerOn (env : PowerEnv)
  | rstPinReset (ns : Nat)
  | softReset (w : Word)
  | watchdogReset
  | resetRelease (env : ReleaseEnv)
  | backupMigration (n : Nat)
  | powerupDigest
  | startupComplete
  | powerFail
  | shadowStoreDone
  | powerFailRecovery (env : PowerEnv)
  | vbatLoss
  | bkpSupplySwitch (sw : SupplySwitch)
  | vddioLoss
  | hbeatWrite (v : Word)
  | heartbeatStale
  | liveTimebaseBoundary
  | strobeConflict
  | shortCycle (a : Access)
  | registerWrite (a : BitVec 6) (v : Word)
  | windowSelect (v : Word)
  | windowAddressWrite (high : Bool) (v : Word)
  | windatRead
  | evstatClear (v : Word)
  | evenWrite (v : Word)
  | counterPreset (v : Word)
  | formeEditWrite (v : Word)
  | caseWrite (v : Word)
  | calsetWrite (v : Word)
  | fkprogWrite (v : Word)
  | glnodeQueueWrite (v : Word)
  | nvarrLoad (v : Word)
  | shadowWrite (v : Word)
  | evsumClear (n : Fin 4) (v : Word)
  | injkeyWrite (v : Word)
  | injectStart (v : Word)
  | injectionEnd
  | mailboxEntry
  | mailboxFullSignal
  | selfCheckTick (noiseBad clockBad : Bool)
  | sealkeyWrite (v : Word)
  | tokenReset (w : Word)
  | openingCheck
  | openingResult
  | makereadyEntry
  | closeRequest (w : Word)
  | closingDigest
  | closingComplete
  | excctlWrite (w : Word)
  | chctlConfigWrite (k : Chan) (w : Word)
  | channelStartRequest (k : Chan) (w : Word)
  | channelStopRequest (k : Chan) (w : Word)
  | chstartGo (w : Word)
  | chstartStop (w : Word)
  | chstartCancel (w : Word)
  | cancelTakesEffect
  | syncEdge
  | startTakesEffect
  | excitationOn
  | firstSample (k : Chan)
  | stopTakesEffect
  | excitationReversal
  | gapMonitorReading (k : Chan) (r : GapReading)
  | engineTurn (t : TurnInput)
  | modulatorResetEnd (k : Chan)
  | crystalStop
  | pllLockLoss
  | crystalReturn
  | tempConversionDone (c : TempReading)
  | formeLoad (w : Word)
  | formeLoadComplete
  | fifoFlush (w : Word)
  | smpdatRead
  | caseCopy (w : Word)
  | caseSwitch (w : Word)
  | caseStoreComplete
  | crossfadeEnd (k : Chan)
  | grpdlySelect (w : Word)
  | grpdlyRead
  | tonePointerWrite (w : Word)
  | toneParamWrite (w : Word)
  | toneParamRead
  | toneStart (w : Word)
  | toneStop (w : Word)
  | toneBlockResult
  | calStore (w : Word)
  | calStoreComplete
  | calReload (w : Word)
  | kernEpochEnd (k : Chan)
  | kernSolveEnd
  | kernPendingTimeout (k : Chan)
  | kernReset (w : Word)
  | superframeOrigin
  | beaconReceived (f : Frame) (e : Int)
  | beaconMissed
  | uplinkSend
  | uplinkReceived (a : Station) (f : Frame) (delta : Int)
  | joinReceived (a : Station) (f : Frame) (delta : Int)
  | nodeSlotEnd (a : Station)
  | remoteAccessGo (w : Word)
  | downlinkSend
  | downlinkReceived (f : Frame)
  | broadcastReceived (f : Frame)
  | downlinkExecute
  | linkRestart (w : Word)
  | lnkLockLoss
  | linkCheckValue
  | frisketPass (r : PassReading)
  | passWindowEnd
  | zeroizeRelease
  | supplyGlitch (a b : Bool)
  | lfxoFailover
  | programApply (w : Word)
  | fkrespWrite (w : Word)
  | fkrespRead
  | keyDataWord (w : Word)
  | keyLoad (w : Word)
  | keyCommit (w : Word)
  | keyErase (w : Word)
  | keySlotWritten
  | keyRead (w : Word)
  | keyHostRead
  | keyZeroize (w : Word)
  | tapInstructionUpdate (i : TapUpdate)
  | composingPortRequest (ir : Byte)
  | composingPortOpened
  | testPinHigh
  | nvCommit (w : Word)
  | nvDiscard (w : Word)
  | shadowStoreCommand (w : Word)
  | slugWrite (w : Word)
  | slugDataWord (w : Word)
  | slugRead (w : Word)
  | slugReadWord
  | arrayOperationDone
  | refreshPage (m : MarginReading)
  | txnOpen (w : Word)
  | txnClose (w : Word)
  | txnSignedClose (w : Word)
  | txnSignDone
  | txnAbort (w : Word)
  | imprintVerify (w : Word)
  | imprintVerifyDone
  | rtcSecond
  | rtcStageWrite (high : Bool) (v : Word)
  | rtcSet (v : Word)
  | rtcSnapshotRead
  | vcapHoldUpLost
  | vddioReturn
  | pllRelock
  | downlinkSlotEnd
  | neverWritableArrayWrite (v : Word)
deriving DecidableEq, Repr

end Sys2Proof
end

