-- ==== Sys2Proof/Config.lean ====
section
/-! DEFINITION. Config.lean: what the manual leaves open. Every constant here is opaque: no proof can see its value, and a
statement that holds, holds for each value. A constant that the manual bounds is used only through a function that keeps
the bound (Machine/Bits.lean, Machine/Stages.lean). -/

namespace Sys2Proof.Config

/-- R322, R293: the draws of the on-chip noise source, in order. Log entry 4. -/
opaque noise : Nat → W32

/-- R151: whether the injection of an event finds its detector or its path failed. Log entry 49. -/
opaque pathFailed : Nat → Bool

/-- R139: whether a read of a memory finds a parity error while no turn brings its errors. Log entry 49. -/
opaque parityError : Nat → Nat → Bool

/-- R71: whether an RST# pulse between 100 ns and 1 µs is recognised. Log entry 5. -/
opaque rstTaken : Nat → Bool

/-- R84, R380: what a torn word holds, and whether its check bits then fail. Log entry 6. -/
opaque tornWord : Nat → Nat → Word
opaque tornBad : Nat → Nat → Bool

/-- R365: how a word with three or more bit errors reads: its data, and 0 correct, 1 corrected, otherwise
uncorrectable. Log entry 7. -/
opaque manyRead : Nat → Word → Nat × Word

/-- R192: taps of the half-band filter at odd distances from its middle, in units of 2^-(hbfBits + 1). Log entry 8. -/
opaque hbfTaps : List Int
opaque hbfBits : Nat

/-- R192: relative error of the CIC normalisation, as a fraction. Log entry 9. -/
opaque cicError : Nat → Nat → Int × Nat

/-- R192: fractional bits below the stream grid that an IIR section carries. Log entry 10. -/
opaque iirGuardBits : Nat

/-- R201: the first half of the FIR table of a ROM preset (the tables are symmetric, R239). Log entry 11. -/
opaque romFirHalf : Nat → List Int

/-- R242: error of a tone magnitude and of a tone phase within the stated limits; results of a skipped block; the phase
of a zero sum. Log entry 12. -/
opaque toneMagError : Nat → Int
opaque tonePhaseError : Nat → Int
opaque toneSkippedMag : Nat → W32
opaque toneSkippedPhase : Nat → Word
opaque toneZeroPhase : Nat → Word

/-- R269: Kern's new estimate (per draw and element) and its quality figure. Log entry 13. -/
opaque kernEstimate : Nat → Nat → Int
opaque kernQuality : Nat → Word

/-- R270: how far a legal application moves the coefficients within its limit. Log entry 14. -/
opaque kernStep : Nat → Nat

/-- R177, R184, R186: whether a start request takes effect in the MOD clock of the request before it; whether a SYNC edge was
synchronised after an arming that may not have taken effect yet. Log entry 25. -/
opaque sameClock : Nat → Bool
opaque armTaken : Nat → Bool

/-- R421: what a patched engine forms in place of a stream value, and whether its stages saturate. Log entry 51. -/
opaque patchValue : Nat → Int
opaque patchFlag : Nat → Bool

/-- R296: the trim, in counts of 2 ppm, that cancels the offset between the crystals of HUB and NODE, and how far beyond it
a NODE slews its phase. Log entry 15. -/
opaque crystalOffset : Nat → Int
opaque trimSlew : Nat → Nat

/-- R190: how much the spare part of a turn of a NODE departs from 12 st. Log entry 16. -/
opaque spareShift : Nat → Int


end Sys2Proof.Config
end

