-- ==== Sys2Proof/Machine/Bits.lean ====
section
/-! DEFINITION. Machine/Bits.lean: bytes and words, sparse arrays in canonical form, the two CRCs, clamps. -/

namespace Sys2Proof.Machine

/-! ## Sparse arrays

An array is a list of (address, value) pairs in rising order of address, without entries that equal what an unlisted address
reads as. The EEPROM reads FFh where nothing is listed, the shadow SRAM 00h, a case 0. -/

/-- What address `a` reads as; `d` is the value of an unlisted address. -/
def cellRead {α : Type} (d : α) : List (Nat × α) → Nat → α
  | [], _ => d
  | (k, v) :: rest, a => if k = a then v else cellRead d rest a

/-- Writes `v` at address `a` and keeps the canonical form. -/
def cellWrite {α : Type} [DecidableEq α] (d : α) : List (Nat × α) → Nat → α → List (Nat × α)
  | [], a, v => if v = d then [] else [(a, v)]
  | (k, w) :: rest, a, v =>
    if a < k then (if v = d then (k, w) :: rest else (a, v) :: (k, w) :: rest)
    else if a = k then (if v = d then rest else (a, v) :: rest)
    else (k, w) :: cellWrite d rest a v

/-- Writes values at consecutive addresses from `a`. -/
def cellWrites {α : Type} [DecidableEq α] (d : α) : List (Nat × α) → Nat → List α → List (Nat × α)
  | m, _, [] => m
  | m, a, v :: rest => cellWrites d (cellWrite d m a v) (a + 1) rest

/-- The canonical form: addresses rise strictly above `lo`, and no entry equals `d`. -/
def cellsFrom {α : Type} [DecidableEq α] (d : α) (lo : Nat) : List (Nat × α) → Bool
  | [] => true
  | (k, v) :: rest => decide (lo ≤ k) && decide (v ≠ d) && cellsFrom d (k + 1) rest

/-- The canonical form of an array whose unlisted addresses read `d`. -/
def Memory.wf {α : Type} [DecidableEq α] (d : α) (m : List (Nat × α)) : Bool := cellsFrom d 0 m

/-- `n` values from address `a`. -/
def cellRange {α : Type} (d : α) (m : List (Nat × α)) (a n : Nat) : List α :=
  (List.range n).map fun i => cellRead d m (a + i)

/-! ## Bytes -/

/-- The `n` low bytes of a number, low byte first. -/
def leBytes : Nat → Nat → List Byte
  | 0, _ => []
  | n + 1, v => BitVec.ofNat 8 v :: leBytes n (v / 256)

/-- The number whose bytes are listed low byte first. -/
def ofLe : List Byte → Nat
  | [] => 0
  | b :: rest => b.toNat + 256 * ofLe rest

/-- The `n` low bytes of a number, high byte first. -/
def beBytes (n v : Nat) : List Byte := (leBytes n v).reverse

/-- The number whose bytes are listed high byte first. -/
def ofBe (bs : List Byte) : Nat := ofLe bs.reverse

/-- Bytes of words, low byte of each first. -/
def bytesOfWords : List Word → List Byte
  | [] => []
  | w :: rest => leBytes 2 w.toNat ++ bytesOfWords rest

/-- Words of bytes, low byte of each first; an odd last byte is dropped. -/
def wordsOfBytes : List Byte → List Word
  | lo :: hi :: rest => (hi ++ lo) :: wordsOfBytes rest
  | _ => []

/-- Bytes of words, high byte of each first (SEALKEY tokens, KEYST words: R38, R338). -/
def bytesOfWordsHigh : List Word → List Byte
  | [] => []
  | w :: rest => beBytes 2 w.toNat ++ bytesOfWordsHigh rest

/-- Bytes of 32-bit words, low byte of each first. -/
def bytesOfW32s : List W32 → List Byte
  | [] => []
  | w :: rest => leBytes 4 w.toNat ++ bytesOfW32s rest

/-- The low word and the high word of a 32-bit value (Table 04-5: low word at the lower address). -/
def lowWord (v : W32) : Word := v.setWidth 16
def highWord (v : W32) : Word := (v >>> 16).setWidth 16

/-- A 32-bit value from its low and its high word. -/
def joinWords (lo hi : Word) : W32 := hi ++ lo

/-- Words of 32-bit values, low word first. -/
def wordsOfW32s : List W32 → List Word
  | [] => []
  | v :: rest => lowWord v :: highWord v :: wordsOfW32s rest

/-- Pieces of `k` items, at most `fuel` of them. -/
def pieces {α : Type} (k : Nat) : Nat → List α → List (List α)
  | 0, _ => []
  | fuel + 1, xs => if xs.isEmpty then [] else xs.take k :: pieces k fuel (xs.drop k)

/-- The first `n` items of a list, with `d` where it is shorter. -/
def vecOf {α : Type} (n : Nat) (d : α) (xs : List α) : Vector α n :=
  ⟨⟨(xs ++ List.replicate n d).take n⟩, by simp⟩

/-! ## CRCs -/

/-- One bit of the CRC-16 (R471). -/
def crc16Bit (c : Word) : Word := if c.getLsbD 15 then (c <<< 1) ^^^ 0x1021 else c <<< 1

/-- One byte of the CRC-16, most significant bit first (R471). -/
def crc16Byte (c : Word) (b : Byte) : Word :=
  crc16Bit (crc16Bit (crc16Bit (crc16Bit (crc16Bit (crc16Bit (crc16Bit (crc16Bit (c ^^^ (b ++ 0#8)))))))))

/-- R471: polynomial 1021h, initial value FFFFh, no reflection, no final inversion. -/
def crc16 (bs : List Byte) : Word := bs.foldl crc16Byte 0xFFFF

/-- One bit of the CRC-32 of IEEE 802.3, reflected form (R370). -/
def crc32Bit (c : W32) : W32 := if c.getLsbD 0 then (c >>> 1) ^^^ 0xEDB88320 else c >>> 1

/-- One byte of the CRC-32. -/
def crc32Byte (c : W32) (b : Byte) : W32 :=
  crc32Bit (crc32Bit (crc32Bit (crc32Bit (crc32Bit (crc32Bit (crc32Bit (crc32Bit (c ^^^ b.setWidth 32))))))))

/-- R370: polynomial 04C1_1DB7h as in IEEE 802.3. -/
def crc32 (bs : List Byte) : W32 := (bs.foldl crc32Byte 0xFFFFFFFF) ^^^ 0xFFFFFFFF

/-! ## Numbers -/

/-- `v` held within `lo` to `hi`. -/
def clampInt (lo hi v : Int) : Int := if v < lo then lo else if hi < v then hi else v

/-- The signed value of a word. -/
def signedOf {w : Nat} (v : BitVec w) : Int := v.toInt

/-- Division with the quotient rounded towards minus infinity. -/
def floorDiv (a : Int) (b : Nat) : Int := a.fdiv b

/-- The absolute value as a natural number. -/
def absNat (a : Int) : Nat := a.natAbs

/-- Round half away from zero of `a / b`. -/
def roundAway (a : Int) (b : Nat) : Int :=
  let q : Int := ((2 * a.natAbs + b) / (2 * b) : Nat)
  if a < 0 then -q else q

/-- Round half to even of `a / b`. -/
def roundEven (a : Int) (b : Nat) : Int :=
  let q := a.fdiv b
  let r := a - q * b
  if 2 * r < b then q else if (b : Int) < 2 * r then q + 1 else if q % 2 = 0 then q else q + 1

/-- A word with bit `i` set to `b`. -/
def setBit {w : Nat} (v : BitVec w) (i : Nat) (b : Bool) : BitVec w :=
  if b then v ||| BitVec.twoPow w i else v &&& ~~~(BitVec.twoPow w i)

/-- A word built from fields: each field is a number and its lowest bit. -/
def packWord : List (Nat × Nat) → Word
  | [] => 0
  | (v, lo) :: rest => BitVec.ofNat 16 (v * 2 ^ lo) ||| packWord rest

end Sys2Proof.Machine
end

