-- ==== Sys2Proof/Machine/Formes.lean ====
section
/-! DEFINITION. Machine/Formes.lean: the format of a forme (R193), its cost, span and settle count (R191, R202), the loader
checks (R195), the ROM presets (R201, R239) and the group delay (R234 to R238). -/

namespace Sys2Proof.Machine

/-- An instruction word decoded (Table 07-3). -/
inductive StageOp where
  | fin
  | cic (order ratio : Nat)
  | hbf
  | fir (dec ntaps cbase : Nat)
  | iir (sect cbase slen : Nat)
  | tap
  | tone
  | motion (m bscale band : Nat)
  | settle (count : Nat)
  | cal
  | bad
deriving DecidableEq, Repr

/-- Table 07-3. -/
def stageOf (w : W32) : StageOp :=
  match fieldOf w 28 4 with
  | 0 => .fin
  | 1 => .cic (fieldOf w 25 3) (fieldOf w 13 12 + 1)
  | 2 => .hbf
  | 3 => .fir (fieldOf w 24 4 + 1) (fieldOf w 15 9 + 1) (fieldOf w 6 9)
  | 4 => .iir (fieldOf w 25 3 + 1) (fieldOf w 16 9) (fieldOf w 8 8)
  | 5 => .tap
  | 6 => .tone
  | 7 => .motion (fieldOf w 20 8) (fieldOf w 16 4) (fieldOf w 0 16)
  | 8 => .settle (fieldOf w 0 16)
  | 9 => .cal
  | _ => .bad

/-- Table 07-3: a reserved opcode, a reserved bit set, or a field outside its range. -/
def operandBad (w : W32) : Bool :=
  match stageOf w with
  | .fin | .hbf | .tap | .tone | .cal => decide (fieldOf w 0 28 ≠ 0)
  | .cic order ratio => decide (fieldOf w 0 13 ≠ 0 ∨ order < 1 ∨ 5 < order ∨ ratio < 2)
  | .fir .. => decide (fieldOf w 0 6 ≠ 0)
  | .iir .. => decide (fieldOf w 0 8 ≠ 0)
  | .motion m _ _ => decide (m < 2)
  | .settle _ => decide (fieldOf w 16 12 ≠ 0)
  | .bad => true

/-- Decimation of a stage. -/
def StageOp.ratio : StageOp → Nat
  | .cic _ r => r
  | .hbf => 2
  | .fir d _ _ => d
  | _ => 1

/-- Table 07-1: cost for each input, in st. -/
def StageOp.cost : StageOp → Nat
  | .cic _ _ => 2
  | .hbf => 1
  | .fir d n _ => (n + 4 * d - 1) / (4 * d)
  | .iir s _ _ => s
  | .cal => 2
  | _ => 0

/-- Table 07-1: span contribution L - 1, in stage input samples. -/
def StageOp.span : StageOp → Nat
  | .cic o r => o * (r - 1)
  | .hbf => 46
  | .fir _ n _ => n - 1
  | .iir _ _ l => 8 * l
  | _ => 0

/-- Table 07-2: LEN. -/
def formeLen (image : Vector W32 64) : Nat := fieldOf (image.get 0) 8 8

/-- The instruction words 1 to LEN - 1. -/
def formeWords (image : Vector W32 64) : List W32 := (image.toList.take (formeLen image)).drop 1

/-- The stages of a forme. -/
def formeOps (image : Vector W32 64) : List StageOp := (formeWords image).map stageOf

/-- Total decimation of a list of stages. -/
def decimation : List StageOp → Nat
  | [] => 1
  | op :: rest => op.ratio * decimation rest

/-- Each stage with its R (07, Model), the first with `r`. -/
def withRates : Nat → List StageOp → List (StageOp × Nat)
  | _, [] => []
  | r, op :: rest => (op, r) :: withRates (r * op.ratio) rest

/-- R191: C = 1 + sum of the costs. -/
def formeCost (ops : List StageOp) : Nat := 1 + (ops.map StageOp.cost).sum

/-- R202: S, in mt, over the given stages. -/
def spanSum (ops : List StageOp) : Nat := ((withRates 1 ops).map fun x => x.1.span * x.2).sum

/-- R202: U = ceil((S + 1) / D) - 1 of the stream behind the given stages. -/
def settleCount (ops : List StageOp) : Nat :=
  let d := decimation ops
  (spanSum ops + d) / d - 1

/-- The stages ahead of the first one that satisfies `p`; none where there is none. -/
def stagesAhead (p : StageOp → Bool) : List StageOp → Option (List StageOp)
  | [] => none
  | op :: rest => if p op then some [] else (stagesAhead p rest).map (op :: ·)

def isTap (op : StageOp) : Bool := decide (op = .tap)
def isTone (op : StageOp) : Bool := decide (op = .tone)
def isCal (op : StageOp) : Bool := decide (op = .cal)
def isMotion : StageOp → Bool
  | .motion .. => true
  | _ => false
def isSettle : StageOp → Bool
  | .settle _ => true
  | _ => false
/-- CIC, HBF, FIR, IIR. -/
def isFilter : StageOp → Bool
  | .cic .. | .hbf | .fir .. | .iir .. => true
  | _ => false

/-- COUNT of a SETTLE stage. -/
def settleWord : List StageOp → Option Nat
  | [] => none
  | .settle c :: _ => some c
  | _ :: rest => settleWord rest

/-- R202: the settle count in use of the final output. -/
def finalSettle (ops : List StageOp) : Nat := (settleWord ops).getD (settleCount ops)

/-! ## Loader checks -/

/-- Index of the first word, counted from `i`, that satisfies `p`. -/
def firstWord {α : Type} (p : α → Bool) : Nat → List α → Option Nat
  | _, [] => none
  | i, x :: rest => if p x then some i else firstWord p (i + 1) rest

/-- Index of the second word that satisfies `p`. -/
def secondWord {α : Type} (p : α → Bool) (i : Nat) (xs : List α) : Option Nat :=
  match firstWord p i xs with
  | none => none
  | some j => firstWord p (j + 1) (xs.drop (j + 1 - i))

/-- Check 2 of Table 07-4: the failing word. -/
def lengthFault (image : Vector W32 64) : Option Nat :=
  let len := formeLen image
  if len < 2 ∨ 64 < len then some 0
  else
    match firstWord (fun w => decide (fieldOf w 28 4 = 0)) 1 (formeWords image) with
    | none => some (len - 1)
    | some j => if j < len - 1 then some j else none

/-- Check 5 of Table 07-4: the failing word, 0 where a stage is missing (log entry 20). -/
def structureFault (legal : Bool) (ops : List StageOp) : Option Nat :=
  let again := [isCal, isMotion, isTap, isTone, isSettle].filterMap fun p => secondWord p 1 ops
  let afterCal :=
    if legal then
      match firstWord isCal 1 ops with
      | none => []
      | some j => (firstWord isFilter (j + 1) (ops.drop j)).toList
    else []
  let missing := legal && (!ops.any isCal || !ops.any isMotion)
  match (again ++ afterCal) with
  | [] => if missing then some 0 else none
  | x :: rest => some (rest.foldl min x)

/-- Check 6 of Table 07-4 of one stage. -/
def coefficientBad : StageOp → Bool
  | .fir _ n c => decide (512 < c + n)
  | .iir s c _ => decide (512 < c + 5 * s)
  | _ => false

/-- Check 7 of Table 07-4: the failing TAP word; 0 where only D of the whole forme fails (log entry 20). -/
def rateFault (legal : Bool) (ops : List StageOp) : Option Nat :=
  let d := decimation ops
  match firstWord (fun x : StageOp × Nat => isTap x.1 && decide (x.2 < 64)) 1 (withRates 1 ops) with
  | some w => some w
  | none => if (if legal then d < 3840 ∨ 153600 < d else d < 64 ∨ 1536000 < d) then some 0 else none

/-- R195: the first failing check of Table 07-4 and its word; none where all pass. -/
def loaderCheck (legal : Bool) (image : Vector W32 64) : Option (Nat × Nat) :=
  let h := image.get 0
  let ops := formeOps image
  if fieldOf h 24 8 ≠ 0x4B ∨ fieldOf h 16 8 ≠ 1 ∨ fieldOf h 0 7 ≠ 0 then some (1, 0)
  else
    match lengthFault image with
    | some w => some (2, w)
    | none =>
      match firstWord operandBad 1 (formeWords image) with
      | some w => some (3, w)
      | none =>
        if bitOf h 7 ≠ legal then some (4, 0)
        else
          match structureFault legal ops with
          | some w => some (5, w)
          | none =>
            match firstWord coefficientBad 1 ops with
            | some w => some (6, w)
            | none =>
              match rateFault legal ops with
              | some w => some (7, w)
              | none =>
                if 13 < formeCost ops then some (8, 0)
                else if legal && decide (finalSettle ops < settleCount ops) then
                  some (9, (firstWord isSettle 1 ops).getD 0)
                else none

/-! ## ROM presets -/

/-- Encodings of the words that the presets hold (Tables 07-2, 07-3). -/
def encHeader (len : Nat) (legal : Bool) : W32 := BitVec.ofNat 32 (0x4B010000 + 256 * len + 128 * flag legal)
def encCic (order ratio : Nat) : W32 := BitVec.ofNat 32 (0x10000000 + order * 2 ^ 25 + (ratio - 1) * 2 ^ 13)
def encHbf : W32 := 0x20000000
def encFir (dec ntaps : Nat) : W32 := BitVec.ofNat 32 (0x30000000 + (dec - 1) * 2 ^ 24 + (ntaps - 1) * 2 ^ 15)
def encIir : W32 := BitVec.ofNat 32 (0x40000000 + 128 * 2 ^ 16 + 1 * 2 ^ 8)
def encMotion (m : Nat) : W32 := BitVec.ofNat 32 (0x70000000 + m * 2 ^ 20 + 0x53E3)
def encCal : W32 := 0x90000000

/-- A legal preset: CIC 5/ratio, `h` HBF, FIR 128 taps by 16, IIR, MOTION, CAL, END (Table 07-6). -/
def legalPreset (ratio h m : Nat) : List W32 :=
  [encHeader (7 + h) true, encCic 5 ratio] ++ List.replicate h encHbf ++ [encFir 16 128, encIir, encMotion m, encCal, 0]

/-- A dynamic preset: CIC 4/ratio, HBF, FIR, CAL, END (Table 07-6). -/
def dynamicPreset (ratio ntaps dec : Nat) : List W32 :=
  [encHeader 6 false, encCic 4 ratio, encHbf, encFir dec ntaps, encCal, 0]

/-- Table 07-6. -/
def presetWords (p : BitVec 3) : List W32 :=
  match p.toNat with
  | 0 => legalPreset 1200 3 5
  | 1 => legalPreset 960 2 12
  | 2 => legalPreset 480 2 25
  | 3 => legalPreset 240 2 50
  | 4 => legalPreset 60 2 200
  | 5 => dynamicPreset 80 96 8
  | 6 => dynamicPreset 32 64 4
  | _ => dynamicPreset 16 56 2

/-- An image of 64 words from a list; missing words are 0. -/
def imageOf (ws : List W32) : Vector W32 64 := vecOf 64 0 ws

/-- The image of a ROM preset. -/
def presetImage (p : BitVec 3) : Vector W32 64 := imageOf (presetWords p)

/-- Number of taps of a preset's FIR. -/
def presetTaps (p : BitVec 3) : Nat :=
  match p.toNat with
  | 5 => 96
  | 6 => 64
  | 7 => 56
  | _ => 128

/-- The first half of a preset's symmetric FIR table. The manual leaves its values open (R201, R239): a free value of the
right length whose taps fit Q1.31 and whose sum defines a group delay; else all but the two middle taps are 0
(log entry 11). -/
def presetHalf (p : BitVec 3) : List Int :=
  let h := Config.romFirHalf p.toNat
  let n := presetTaps p / 2
  if h.length = n ∧ h.all (fun x => decide (-(2 ^ 31) ≤ x ∧ x < 2 ^ 31)) ∧ 2 ^ 11 ≤ (2 * h.sum).natAbs then h
  else List.replicate (n - 1) 0 ++ [2 ^ 30]

/-- The whole FIR table of a preset, as case words. -/
def presetFir (p : BitVec 3) : List W32 :=
  (presetHalf p ++ (presetHalf p).reverse).map fun x => BitVec.ofInt 32 x

/-- R239: the IIR section of the legal presets. -/
def presetIir : List W32 := [0x31000000, 0, 0, 0xF0000000, 0x01000000]

/-- R196: the coefficients that a preset writes into a case: position and word. -/
def presetCase (p : BitVec 3) (m : List (Nat × W32)) : List (Nat × W32) :=
  let m1 := cellWrites 0 m 0 (presetFir p)
  if p.toNat < 5 then cellWrites 0 m1 128 presetIir else m1

/-! ## Group delay -/

/-- A rational number, numerator and positive denominator. -/
structure Frac where
  num : Int
  den : Nat
deriving DecidableEq, Repr

def Frac.add (x y : Frac) : Frac := { num := x.num * y.den + y.num * x.den, den := x.den * y.den }

def Frac.ofNat (n : Nat) : Frac := { num := n, den := 1 }

/-- `a / b` for a divisor of either sign. -/
def Frac.ofInts (a b : Int) : Frac := if b < 0 then { num := -a, den := b.natAbs } else { num := a, den := b.natAbs }

def Frac.scale (n : Nat) (x : Frac) : Frac := { num := x.num * n, den := x.den }

/-- A case coefficient as a signed integer. -/
def coeff (case : List (Nat × W32)) (i : Nat) : Int := (cellRead 0 case i).toInt

/-- R234: sum of i × h_i and of h_i over `n` taps from `base`. -/
def firSums (case : List (Nat × W32)) (base n : Nat) : Int × Int :=
  (List.range n).foldl (fun acc i => (acc.1 + i * coeff case (base + i), acc.2 + coeff case (base + i))) (0, 0)

/-- Table 08-4, one IIR section; none where R235 leaves it undefined. -/
def sectionDelay (case : List (Nat × W32)) (base : Nat) : Option Frac :=
  let b0 := coeff case base
  let b1 := coeff case (base + 1)
  let b2 := coeff case (base + 2)
  let a1 := coeff case (base + 3)
  let a2 := coeff case (base + 4)
  let nb := b0 + b1 + b2
  let na := 2 ^ 30 + a1 + a2
  if nb.natAbs < 2 ^ 10 ∨ na.natAbs < 2 ^ 10 then none
  else some ((Frac.ofInts (b1 + 2 * b2) nb).add (Frac.ofInts (-(a1 + 2 * a2)) na))

/-- Table 08-4: g_i of a stage in its input samples; none where R235 leaves it undefined. -/
def stageDelay (case : List (Nat × W32)) : StageOp → Option Frac
  | .cic o r => some { num := o * (r - 1), den := 2 }
  | .hbf => some (Frac.ofNat 23)
  | .fir _ n c =>
    let s := firSums case c n
    if s.2.natAbs < 2 ^ 11 then none else some (Frac.ofInts s.1 s.2)
  | .iir sect c _ =>
    (List.range sect).foldl
      (fun acc i => match acc, sectionDelay case (c + 5 * i) with
        | some x, some y => some (x.add y)
        | _, _ => none) (some (Frac.ofNat 0))
  | _ => some (Frac.ofNat 0)

/-- R234: cumulative delays in mt at the output of each stage. -/
def delays (case : List (Nat × W32)) : Option Frac → List (StageOp × Nat) → List (Option Frac)
  | _, [] => []
  | acc, (op, r) :: rest =>
    let next := match acc, stageDelay case op with
      | some x, some y => some (x.add (y.scale r))
      | _, _ => none
    next :: delays case next rest

/-- R234, R235: a delay as reported, in mt/16; FFFF_FFFFh where undefined. -/
def delayWord : Option Frac → W32
  | some x => BitVec.ofInt 32 (roundAway (16 * x.num) x.den)
  | none => 0xFFFFFFFF

/-- R236, R238: the 32 elements of GDTAB. -/
def gdTable (image : Vector W32 64) (case : List (Nat × W32)) : Vector W32 32 :=
  let ops := formeOps image
  let ds := delays case (some (Frac.ofNat 0)) (withRates 1 ops)
  let tapAhead := stagesAhead isTap ops
  let tapDelay : Option Frac :=
    match tapAhead with
    | none => none
    | some a => if a.isEmpty then some (Frac.ofNat 0) else (ds[a.length - 1]?).getD none
  let n32 := fun v : Nat => BitVec.ofNat 32 v
  let head : List W32 :=
    [delayWord (ds.getLast?.getD (some (Frac.ofNat 0))), n32 (finalSettle ops), delayWord tapDelay,
     (match tapAhead with | none => 0xFFFF | some a => n32 (settleCount a)), n32 (settleCount ops), n32 (decimation ops),
     (match tapAhead with | none => 0 | some a => n32 (decimation a)), n32 (spanSum ops)]
  let tail := (ds.map delayWord ++ List.replicate 24 0xFFFFFFFF).take 24
  vecOf 32 0 (head ++ tail)

end Sys2Proof.Machine
end

