-- ==== Sys2Proof/Machine/State.lean ====
section
/-! DEFINITION. Machine/State.lean: the state of the KW-4816 as plain data, one structure for each unit of the manual, and
the state after reset. The docstring of a field gives the rule that names it, its width and its reset value; a field that
the manual does not give a reset value names the log entry. `State.reset` is the end of step 4 of Sequence 03-1 at the
first power-on of a blank device: the internal reset is held, every register is at its After POR value, and RESET_RELEASE
is the next step of the power sequence (log entry 1). -/

namespace Sys2Proof.Machine

/-! ## Power -/

/-- Where the device stands (03, Model; Table 03-2). -/
inductive Phase where
  /-- neither VDD nor a running BKP domain need be present -/
  | unpowered
  /-- only the BKP domain runs -/
  | lockup
  /-- the internal reset is asserted -/
  | reset
  /-- MODE.STATE = START -/
  | startup
  | run
  | makeready
  /-- Sequence 03-2 in progress -/
  | powerFail
deriving DecidableEq, Repr

/-- 03: supplies, reset and the power sequences. -/
structure Power where
  /-- R66; state of the device; reset: reset -/
  phase : Phase
  /-- R85, R86; VDD present (1 bit); reset 1 -/
  vdd : Bool
  /-- R428; VDDIO present (1 bit); reset 1, DESIGN CHOICE log 18 -/
  vddio : Bool
  /-- R81, R87; VBAT present (1 bit); reset 1, DESIGN CHOICE log 18 -/
  vbat : Bool
  /-- Table 06-13 AVOK; AVDD within its range (1 bit); reset 1, DESIGN CHOICE log 18 -/
  avddOk : Bool
  /-- R65; the BKP domain is supplied from VDD (1 bit); reset 1 -/
  bkpOnVdd : Bool
  /-- R83, R86; the VCAP switch is closed (1 bit); reset 1 -/
  vcapSwitch : Bool
  /-- Table 04-12 RSTC; cause of the last reset (3 bits); reset 2 (first power-on, Table 03-3) -/
  cause : BitVec 3
  /-- Table 04-12 PFIOK (1 bit); reset 1, DESIGN CHOICE log 18 -/
  pfiOk : Bool
  /-- R74, R284; ROLE strap as sampled (1 bit); reset 0, DESIGN CHOICE log 18 -/
  role : Bool
  /-- R74, R104; BUSMODE strap as sampled (1 bit); reset 0, DESIGN CHOICE log 18 -/
  busmode : Bool
  /-- R72, R339; a reset held behind an operation, with its cause; reset none -/
  heldReset : Option (BitVec 3)
  /-- Table 04-9 SRST; a keyed soft reset waits (1 bit); reset 0 -/
  srst : Bool
  /-- Sequence 03-1 step 6 done (1 bit); reset 0 -/
  migrated : Bool
  /-- Sequence 03-1 steps 7 to 9 done (1 bit); reset 0 -/
  digested : Bool
  /-- R70, R81; the BKP domain was reset since the last power-on (1 bit); reset 0 -/
  bkpLost : Bool
  /-- R43; the reset of the BKP domain has not been answered by the seal unit (1 bit); reset 1 (first power-on) -/
  rtcLost : Bool
  /-- R370, Table 03-5 code 01h; the twin was found invalid at recall (1 bit); reset 1 (blank device) -/
  twinBad : Bool
  /-- R370, R377, R387, R390, R394; events of step 4 to be raised at release; reset [371h, 3A1h] (blank device) -/
  releaseEvents : List Nat
  /-- Table 03-5 code 02h [31:24]; queued host NV writes discarded at PFAIL (count); reset 0 -/
  pfDiscarded : Nat
  /-- Table 03-5 code 02h [0]; a page commit was in progress at PFAIL and completed (1 bit); reset 0 -/
  pfPage : Bool
  /-- Table 03-5 code 02h [1], R374; the power-fail sequence discarded a transaction (1 bit); reset 0 -/
  pfTxn : Bool
deriving DecidableEq, Repr

/-- 03, 04: system registers, heartbeat, LIVE and clocks. -/
structure Sys where
  /-- Table 04-9 HBTO (3 bits); reset 011b -/
  hbto : BitVec 3
  /-- Table 04-9 WDRST (1 bit); reset 0 -/
  wdrst : Bool
  /-- Table 04-13 SCRATCH (16 bits); reset 0000h -/
  scratch : Word
  /-- Table 04-10 HBEAT, last accepted value (16 bits); reset 0000h -/
  hbeat : Word
  /-- R89; a heartbeat has been accepted since the reset (1 bit); reset 0 -/
  hbSeen : Bool
  /-- R89, Table 04-12 HBFRESH (1 bit); reset 0 -/
  hbFresh : Bool
  /-- R421, Table 04-7 PATCH (1 bit); reset 0 -/
  patch : Bool
  /-- R422; outcome of a non-blank patch image, the DATA of its code 61h or 62h; reset none -/
  patchLog : Option (Byte × W32)
  /-- R88, R91; LIVE is toggling (1 bit); reset 0 -/
  liveOn : Bool
  /-- R91, R428; level to which LIVE is driven (1 bit); reset 0 -/
  live : Bool
  /-- R91; every condition of Table 03-6 held after the last step (1 bit); reset 0 -/
  liveHeld : Bool
  /-- Table 04-11 XRUN (1 bit); reset 1 -/
  xrun : Bool
  /-- Table 04-11 PLLLK (1 bit); reset 1 -/
  plllk : Bool
  /-- Table 04-11 LFXRUN (1 bit); LFXO state, reset 1, DESIGN CHOICE log 18 -/
  lfxrun : Bool
  /-- Table 04-11 BKPRC (1 bit); BKP state, reset 0, DESIGN CHOICE log 18 -/
  bkprc : Bool
  /-- Table 04-11 LNKLK (1 bit); reset 1 on a HUB -/
  lnklk : Bool
  /-- Table 04-11 XLOST, PLLLOST (1 bit each); reset 0 -/
  xlost : Bool
  plllost : Bool
  /-- Table 04-11 LFXLOST (1 bit); state at power-up, reset 0, DESIGN CHOICE log 18 -/
  lfxlost : Bool
  /-- Table 04-11 MODTRIM (8 bits, signed); reset 00h -/
  modtrim : BitVec 8
  /-- R139, Table 01-4; the modulator input buffer: the numbers of its sample sets, newest first (2 sets); reset [] -/
  sets : List Nat
  /-- R139; parity errors that the memories of Table 05-2 hold, as the last turn found them: bits 0 to 15 for events 3C0h to
  3CFh, bit 16 for 3E2h (17 bits); reset 0, DESIGN CHOICE log 49 -/
  parity : BitVec 17
  /-- R404; turns since internal reset release; reset 0 -/
  turns : Nat
deriving DecidableEq, Repr

/-! ## Bus and window -/

/-- R119, R121: the snapshot of one window element. -/
structure WinSnap where
  array : BitVec 4
  sub : BitVec 4
  base : Nat
  words : List Word
deriving DecidableEq, Repr

/-- R119: the staged words of a partial element. -/
structure WinStage where
  base : Nat
  words : List (Nat × Word)
deriving DecidableEq, Repr

/-- 04: the window registers and the bus. -/
structure Bus where
  /-- Table 04-14 HOLD (1 bit); reset 0 -/
  hold : Bool
  /-- Table 04-14 SUB (4 bits); reset 0h -/
  sub : BitVec 4
  /-- Table 04-14 ARRAY (4 bits); reset 0h -/
  array : BitVec 4
  /-- Tables 04-15, 04-16; window address (24 bits); reset 0 -/
  addr : BitVec 24
  /-- Table 04-18 RANGE, ROREF, PART, BADCHK (1 bit each); reset 0 -/
  range : Bool
  roref : Bool
  part : Bool
  badchk : Bool
  /-- R119, R121; snapshot of a window element; reset none -/
  snap : Option WinSnap
  /-- R119; staged partial element; reset none -/
  stage : Option WinStage
  /-- R106; D[15:0] of the last read (16 bits); reset 0000h, DESIGN CHOICE log 18 -/
  data : Word
  /-- Table 03-4; the last access was a read that the device served, so that D was driven (1 bit); reset 0 -/
  driven : Bool
  /-- R426; a local bus access has occurred since internal reset release (1 bit); reset 0 -/
  localSeen : Bool
deriving DecidableEq, Repr

/-! ## Events -/

/-- 05: events, counters, routing and injection. -/
structure Events where
  /-- R135; sticky bits, one for each event ID (1,024 bits); reset 0 -/
  sticky : BitVec 1024
  /-- R140; enable bits (1,024 bits); reset 0 -/
  enable : BitVec 1024
  /-- R144; group counters (64 of 48 bits); reset 0 -/
  count : Vector (BitVec 48) 64
  /-- R144; overflow flags (64 bits); reset 0 -/
  ovf : BitVec 64
  /-- R135; conditions that held at their last evaluation (1,024 bits); reset 0, but for groups 2Eh to 35h, which
  the BKP domain keeps -/
  held : BitVec 1024
  /-- R173; sticky events that were raised on a legal-class channel and are legal faults (1,024 bits); reset 0 -/
  legal : BitVec 1024
  /-- Table 05-6 SUMSEL, ALEN, INTEN (1 bit each); reset 0 -/
  sumsel : Bool
  alen : Bool
  inten : Bool
  /-- Table 05-6 AREA (11 bits); reset 000h -/
  area : BitVec 11
  /-- Table 05-7 ARMED, ACT, MISS, REF, ABRT (1 bit each); reset 0 -/
  armed : Bool
  act : Bool
  miss : Bool
  ref : Bool
  abrt : Bool
  /-- Table 05-7 EVID (10 bits); reset 000h -/
  evid : BitVec 10
  /-- R151; the detector of the running injection has been evaluated; its event occurred in that evaluation (1 bit each);
  reset 0 -/
  evaluated : Bool
  answered : Bool
  /-- Table 05-4 [15]; FKCTL.LIVETEST at the INJ write (1 bit); reset 0 -/
  injLive : Bool
  /-- Table 05-4 [13:12]; MODE.STATE at the INJ write (2 bits); reset 0 -/
  injMode : BitVec 2
deriving DecidableEq, Repr

/-! ## Imprint entries, seal -/

/-- Table 12-7 without SEQ and CRC. -/
structure Entry where
  code : Byte
  time : W32
  frac : Byte
  data : W32
deriving DecidableEq, Repr

/-- Table 02-1: the seal record. -/
structure SealRecord where
  fails : BitVec 16
  isOpen : Bool
  voids : Bool
  lkstart : W32
deriving DecidableEq, Repr

/-- Sequence 02-1: how far an opening attempt has come. -/
inductive Opening where
  | idle
  /-- step 2 requested; the record before it; a lockout begins; a zeroize has spoilt it -/
  | counting (pre : SealRecord) (began spoilt : Bool)
  /-- step 2 committed: T0 is due -/
  | counted (pre : SealRecord) (began spoilt : Bool)
  /-- T0 passed; the result to come, the void-seal path, whether step 2 began a lockout -/
  | checking (ok void began : Bool)
  /-- step 5a requested -/
  | opening (void : Bool)
  /-- step 5a committed: Make-ready entry is due -/
  | opened (void : Bool)
deriving DecidableEq, Repr

/-- Sequence 02-2: how far a closing has come. -/
inductive Closing where
  | idle
  /-- steps 1 and 2: waiting for NV idle -/
  | waiting
  /-- step 3 done: code 11h is being committed (step 4) -/
  | logging
  /-- code 11h committed, step 5 requested -/
  | recording
  /-- step 5 committed: step 6 is due -/
  | recorded
deriving DecidableEq, Repr

/-- R44: the increment of a legal-change session. -/
inductive Increment where
  | none
  /-- code 23h queued -/
  | logging (v : W32)
  /-- ring 0 commit requested -/
  | ringing (v : W32)
  | done
deriving DecidableEq, Repr

/-- R44: changes that wait for the increment. -/
inductive Deferred where
  /-- a write of RWM fields of a register -/
  | reg (a : BitVec 6) (v : Word)
  /-- an accepted Frisket program -/
  | program (p : Vector W32 32)
deriving DecidableEq, Repr

/-- 02: the seal unit. -/
structure Seal where
  /-- Table 02-4 DENIED, GRANTED, CLREF, DIGERR (1 bit each); reset 0 -/
  denied : Bool
  granted : Bool
  clref : Bool
  digerr : Bool
  /-- R38; token buffer, TKCNT is its length (16 words of 16 bits); reset empty -/
  token : List Word
  /-- Sequence 02-1, SEALST.BUSY; reset idle -/
  opening : Opening
  /-- Sequence 02-2, SEALST.CLOSING; reset idle -/
  closing : Closing
  /-- R49, R50; the legal digest last computed, byte 0 first (256 bits); reset 0, DESIGN CHOICE log 18 -/
  digest : BitVec 256
  /-- R45, R50; legal event counter (32 bits); reset 0 (blank device) -/
  counter : W32
  /-- R44, SEALST.LCHG; reset none -/
  incr : Increment
  /-- R44; changes waiting for the increment; reset [] -/
  deferred : List Deferred
deriving DecidableEq, Repr

/-! ## NV store -/

/-- R365: errors of one stored word against its 22 SECDED bits. -/
inductive Flaw where
  /-- one wrong bit: 0 to 15 data, 16 to 21 check bits -/
  | one (bit : Fin 22)
  | two
  /-- three or more: how it reads is open (R365) -/
  | many (n : Nat)
deriving DecidableEq, Repr

/-- The seal unit's ring commits (R40, R44, Sequences 02-1, 02-2). -/
inductive SealJob where
  | count
  | openSession
  | closeSession
  | increment
  /-- LKSTART moved by a set of the RTC (R42) -/
  | restamp
deriving DecidableEq, Repr

/-- Device legal stores (R197, R227, R256). -/
inductive StoreKind where
  | forme (k : Chan) (src : Bool) (preset : BitVec 3) (image : Vector W32 64)
  /-- a case store: channel, pool slot, ICRC, the case named, whether it switches, whether a preset load started it -/
  | case (k : Chan) (slot : Nat) (icrc : Word) (tgt switch preset : Bool)
  | cal (k : Chan) (slot : Nat) (set : Vector W32 33)
deriving DecidableEq, Repr

/-- A device legal store in progress and the pages it has still to commit. -/
structure LegalStore where
  kind : StoreKind
  pages : List (Nat × List Byte)
deriving DecidableEq, Repr

/-- The pending host operation (R359, R361, R362, R379). -/
inductive HostOp where
  | page (p : Nat) (words : List (Nat × Word))
  | ring (r : Fin 64) (value : BitVec 64)
deriving DecidableEq, Repr

/-- An array operation in progress (R354). -/
inductive ArrayOp where
  | hostPage (p : Nat) (words : List (Nat × Word))
  | hostRing (r : Fin 64) (value : BitVec 64)
  | legalPage (p : Nat) (bytes : List Byte)
  | sealRing (r : Fin 64) (value : BitVec 64) (job : SealJob)
  /-- `n` queue entries from queue place `first` (R385) -/
  | imprint (first n : Nat)
  /-- code 50h or 51h (R386) -/
  | marker (code : Byte)
  /-- a shadow store of the image, by command or by power fail, into bank B or A (R371) -/
  | store (cmd bankB : Bool) (image : List Host.Cell) (number : W32)
  /-- a refresh rewrite of a weak page (R367) -/
  | refresh (p : Nat)
deriving DecidableEq, Repr

/-- R377: the current slot of a ring, as the controller holds it. -/
structure RingSlot where
  slot : Fin 16
  seq : W32
  value : BitVec 64
deriving DecidableEq, Repr

/-- 12: the NV controller and the array. -/
structure Nv where
  /-- R355; the EEPROM array, 131,072 bytes, canonical (address, byte) list; unlisted reads FFh; reset blank -/
  mem : List Host.Cell
  /-- R365; words with bit errors, by NVARR word address; reset [] -/
  flaws : List (Nat × Flaw)
  /-- R354; array operation in progress; reset none -/
  running : Option ArrayOp
  /-- R362; ring commits the seal unit has requested, oldest first; reset [] -/
  sealQueue : List (Fin 64 × BitVec 64 × SealJob)
  /-- R359, NVST.HPEND; pending host operation; reset none -/
  host : Option HostOp
  /-- R197, R227, R256; device legal stores in progress, oldest first; reset [] -/
  legal : List LegalStore
  /-- R357, NVST.BPAGE; page latched by the page buffer (11 bits); reset none -/
  bufPage : Option (BitVec 11)
  /-- R357; loaded words of the page buffer by in-page word; reset [] -/
  bufWords : List (Nat × Word)
  /-- Table 12-12 BPL, BP (1 and 2 bits); reset 0, 00b -/
  bpl : Bool
  bp : BitVec 2
  /-- R377; current slots of the 64 rings; reset none each (blank device) -/
  ring : Vector (Option RingSlot) 64
  /-- R379, Table 12-10 DPH; SLUGW data phase open (1 bit); reset 0 -/
  dph : Bool
  /-- R379; VALUE words staged; reset [] -/
  slugWords : List Word
  /-- R379, Table 12-10 RPH; words of the SLUGR read phase still to be read; reset none -/
  readWords : Option (List Word)
  /-- Table 12-10 CNT; words moved in the open phase (3 bits); reset 0 -/
  cnt : Nat
  /-- Table 12-10 PRING; ring of the open or last phase (6 bits); reset 00h -/
  pring : BitVec 6
  /-- R362, R366; an examination by refresh that is due and waits for the controller, with its margin reading; reset
  none -/
  refresh : Option MarginReading
deriving DecidableEq, Repr

/-- 12: the Imprint writer. -/
structure Imprint where
  /-- R387, Table 12-15 NEXT; next free position, 0 to 4,096; NFULL, FULL, EXH follow from it (R386); reset 0 -/
  next : Nat
  /-- R385; the queue of 32 entries, oldest first; reset [] -/
  queue : List Entry
  /-- R385; entries whose step the seal unit or a store holds until a place of the queue frees; reset [] -/
  heldSteps : List Entry
  /-- R45, R51, R422; DATA of the last valid code 23h, 11h and 61h or 62h entry (code with DATA); reset none -/
  last23 : Option W32
  last11 : Option W32
  lastPatch : Option (Byte × W32)
  /-- R388, Table 12-14 VERIFY; NEXT at the write of a running check; reset none -/
  verify : Option Nat
  /-- Table 12-14 VERR (1 bit); reset 0 -/
  verr : Bool
  /-- Table 12-14 FIRST (13 bits); reset 1FFFh -/
  first : BitVec 13
deriving DecidableEq, Repr

/-- R370: one bank of the shadow twin. -/
structure Bank where
  image : List Host.Cell
  number : W32
  crc : W32
  /-- the bank was torn or never written -/
  torn : Bool
deriving DecidableEq, Repr

/-- 12: the shadow SRAM, its twin and the transaction. -/
structure Shadow where
  /-- R370; 4,096 bytes, canonical list, unlisted reads 00h; reset cleared (R370) -/
  sram : List Host.Cell
  /-- R370, R371; the two banks of the twin; reset never written -/
  bankA : Bank
  bankB : Bank
  /-- R372, Table 12-13 ACTIVE; the 512 staging bytes of an open transaction; reset none -/
  staging : Option (List Byte)
  /-- Table 12-13 SIGN, BUSY, DISC, REF (1 bit each); reset 0 -/
  sign : Bool
  busy : Bool
  disc : Bool
  ref : Bool
  /-- R417; the record-signing key read at the start of the signed close (256 bits); reset 0, DESIGN CHOICE log 18 -/
  signKey : BitVec 256
  /-- R407; the SHA-256 core has taken up the signed close (1 bit); reset 0 -/
  started : Bool
  /-- Table 12-13 CLOSE, R12; reads 1 until the signed close ends or the mode changes (1 bit); reset 0 -/
  closeBit : Bool
  /-- Table 12-13 BASE (3 bits); reset 000b -/
  base : BitVec 3
deriving DecidableEq, Repr

/-! ## BKP domain: clock, buffers, keys, Frisket -/

/-- R34, R472: one mailbox entry with its timestamp (Table 01-4). -/
structure Mail where
  event : Nat
  time : W32
  frac : Byte
deriving DecidableEq, Repr

/-- 12, 01: the real-time clock, the backup buffer, the event mailbox, the refresh position. -/
structure Bkp where
  /-- R390; RTC seconds (32 bits); reset 0 (BKP reset) -/
  sec : W32
  /-- R390; RTC fraction (8 bits); reset 0 -/
  frac : Byte
  /-- Table 12-18 VALID (1 bit); reset 0 -/
  valid : Bool
  /-- R392; staged RTCL and RTCH words; reset none -/
  stageL : Option Word
  stageH : Option Word
  /-- R391; snapshot of RTCH and RTCF.FRAC; reset none -/
  snap : Option (Word × Byte)
  /-- R389; backup buffer, 16 entries, oldest first; reset [] -/
  buffer : List Entry
  /-- R389; entries not stored (16 bits, saturating); reset 0 -/
  lost : Nat
  /-- R79; entries committed, and entries counted, by the running migration; reset 0 -/
  migDone : Nat
  migLost : Nat
  /-- R34, Table 01-4; event mailbox, 16 entries; reset [] -/
  mailbox : List Mail
  /-- R34; sticky pending flags of sources, as their events in order; reset [] -/
  flags : List Mail
  /-- R34; the pending-flag signal waits for SYS (1 bit); reset 0 -/
  fullSignal : Bool
  /-- R366; next page of refresh (0 to 2,047); reset 0 -/
  refreshPage : Nat
  /-- R366; BKP ticks of RUN since the last examination, as far as the model's clock shows them (log 47); reset 0 -/
  refreshTicks : Nat
deriving DecidableEq, Repr

/-- 11: the key store and the KEYST port. -/
structure Keys where
  /-- Table 11-5 SIGN, LINK, VER, HOST (256, 128, 256, 256 bits), byte 0 in the most significant place; reset 0 -/
  sign : BitVec 256
  link : BitVec 128
  ver : BitVec 256
  host : BitVec 256
  /-- Table 11-11 PRES (4 bits); reset 0h -/
  pres : BitVec 4
  /-- R337; void flag (1 bit); reset 1 (R68) -/
  void : Bool
  /-- R331; key-store clear line asserted (1 bit); reset 0 -/
  clear : Bool
  /-- R338; staging words, WCNT is its length (at most 16); reset [] -/
  stage : List Word
  /-- R338, Table 11-11 DPH, RPH (1 bit each); reset 0 -/
  dph : Bool
  rph : Bool
  /-- R338; HOST words read in the open read phase (0 to 15); reset 0 -/
  readPos : Nat
  /-- Table 11-11 SLOT (3 bits); reset 000b -/
  slot : BitVec 3
  /-- R339; slot to which the staging words belong (3 bits); reset 000b -/
  stageSlot : BitVec 3
  /-- R339, Table 11-11 BUSY; a legal COMMIT (with its words) or ERASE of a slot waiting; reset none -/
  op : Option (BitVec 3 × Option (List Word))
  /-- R339, R409; LINK commits (with the key that each wrote) and erasures whose code 60h is due, oldest first; reset [] -/
  check : List (Option (BitVec 128))
deriving DecidableEq, Repr

/-- R327, R328: the trip of one source that is being classified. -/
structure Trip where
  evals : Nat
  both : Bool
  /-- every evaluation so far found exactly detector A, exactly detector B -/
  onlyA : Bool
  onlyB : Bool
  firstA : Bool
  firstB : Bool
  inLockup : Bool
  resp : BitVec 2
  code : Byte
  time : W32
  frac : Byte
  /-- started by a LIVETEST injection: recorded only by code 35h (R346) -/
  injected : Bool
  /-- R352; DATA of the code 33h that such a trip left out, should a real condition still join its evaluation -/
  erased : Option W32
deriving DecidableEq, Repr

/-- R327: one source. -/
structure Source where
  /-- armed (1 bit); reset 1 -/
  armed : Bool
  /-- consecutive evaluations without a condition, 0 to 8; reset 0 -/
  quiet : Nat
  /-- trip being classified; reset none -/
  trip : Option Trip
deriving DecidableEq, Repr

/-- 11: the Frisket guard. -/
structure Frisket where
  /-- Table 11-8 LMODE (8 bits); reset 00h -/
  lmode : BitVec 8
  /-- Table 11-8 CASEEN (2 bits); reset 00b -/
  caseen : BitVec 2
  /-- Table 11-8 LIVETEST (1 bit); reset 0 -/
  livetest : Bool
  /-- Table 11-9 LTRIP, CTRIP (4 and 2 bits); reset 0 -/
  ltrip : BitVec 4
  ctrip : BitVec 2
  /-- Table 11-9 ETRIP reads 1 while a bit is set; R334: the environment sources that set it, from VBAT on (4 bits);
  reset 0 -/
  etrip : BitVec 4
  /-- Table 11-9 CALTRIP, DFLT, LKTRIP, BKLOW (1 bit each); reset 0 -/
  caltrip : Bool
  dflt : Bool
  lktrip : Bool
  bklow : Bool
  /-- R330; consecutive passes at or above 2.30 V; reset 0 -/
  bkGood : Nat
  /-- Table 11-9 PERR (4 bits); reset 0h -/
  perr : BitVec 4
  /-- Table 11-10; response pages 0 (12 bits) and 1 (10 bits); reset AAAh, 268h -/
  resp0 : BitVec 12
  resp1 : BitVec 10
  /-- R347; the next FKRESP read shows page 1 (1 bit); reset 0 -/
  respPage : Bool
  /-- R323, R325; active and staging programs (32 steps of 32 bits); reset default program -/
  active : Vector W32 32
  staging : Vector W32 32
  /-- R324; accepted program waiting for the next pass start; reset none -/
  next : Option (Vector W32 32)
  /-- Table 11-8 PAPPLY, R12: reads 1 until an accepted program becomes active or the mode changes (1 bit); reset 0 -/
  papply : Bool
  /-- R321; LMODE in effect since the last pass start (8 bits); reset 00h -/
  lmodeNow : BitVec 8
  /-- R322; the loops' LFSRs (4 of 15 bits); reset noise draws 0 to 3, an all-zero draw replaced by 0001h -/
  lfsr : Vector (BitVec 15) 4
  /-- R321; level on each LOOPO, none when released; reset none -/
  loopo : Vector (Option Bool) 4
  /-- R327; the eleven sources; reset armed -/
  src : Vector Source 11
  /-- R318; latches of the two glitch detectors (1 bit each); reset 0 -/
  glitchA : Bool
  glitchB : Bool
  /-- R329; the last evaluation of CALSW found both detectors in condition (1 bit); reset 0 -/
  calBoth : Bool
  /-- R329; passes started since that evaluation; reset 0 -/
  calAge : Nat
  /-- R326; a pass still runs at the end of its window (1 bit); reset 0 -/
  passOpen : Bool
  /-- R326; passes on main power are timed from BKP (1 bit); reset 0 -/
  fallback : Bool
  /-- R331, R335; ZOUT (1 bit); reset 0 -/
  zout : Bool
  /-- R334; ALERT# driven by a command, port or TEST zeroize until the release (1 bit); reset 0 -/
  pulseAlert : Bool
deriving DecidableEq, Repr

/-- R342, IEEE 1149.1: the states of the TAP controller. -/
inductive TapState where
  | testLogicReset | runTestIdle
  | selectDr | captureDr | shiftDr | exit1Dr | pauseDr | exit2Dr | updateDr
  | selectIr | captureIr | shiftIr | exit1Ir | pauseIr | exit2Ir | updateIr
deriving DecidableEq, Repr

/-- 11: the composing port. -/
structure Port where
  /-- Table 11-12 OPEN, PEND, REF (1 bit each); reset 0 -/
  isOpen : Bool
  pend : Bool
  ref : Bool
  /-- Sequence 11-2, step 4; code 38h of the opening in progress has committed (1 bit); reset 0 -/
  logged : Bool
  /-- R343; entries of code 38h of earlier sessions that are queued ahead of that one (count); reset 0 -/
  ahead : Nat
  /-- Table 11-12 TESTL; level of TEST (1 bit); reset 0, DESIGN CHOICE log 18 -/
  test : Bool
  /-- R342; the TAP controller; reset Test-Logic-Reset -/
  tap : TapState
  /-- Table 11-12 IR (8 bits); reset 01h -/
  ir : Byte
  /-- R342; shift stage of the instruction register (8 bits); reset 01h, DESIGN CHOICE log 42 -/
  irShift : Byte
  /-- R342, Table 14-14; shift stage and update stage (PRELOAD) of the boundary-scan register, cell k in bit k (60 bits each);
  reset 0, DESIGN CHOICE log 42 -/
  cells : BitVec 60
  preload : BitVec 60
  /-- Table 11-7; shift stages of the IDCODE and BYPASS registers (32 and 1 bits); reset 0, DESIGN CHOICE log 42 -/
  idShift : W32
  bypass : Bool
  /-- R345; factory test state (1 bit); reset 0 -/
  factory : Bool
deriving DecidableEq, Repr

/-! ## Front end -/

/-- R176: the four states of a channel. -/
inductive ChanState where
  | stopped | starting | running | halted
deriving DecidableEq, Repr

/-- 06: one channel of the front end. -/
structure FeChan where
  /-- Table 06-10 CLASS, SHORT (1 bit each), RANGE (2 bits); reset 0, 0, 01b -/
  cls : Bool
  short : Bool
  range : BitVec 2
  /-- R176, Sequence 06-2 step 1; SHORT and RANGE in use since the last start; reset 0, 01b -/
  shortNow : Bool
  rangeNow : BitVec 2
  /-- Table 06-12 STATE; reset stopped -/
  state : ChanState
  /-- Table 06-10 START reads 1 while a start is requested and not ended (1 bit); reset 0 -/
  startBit : Bool
  /-- Table 06-10 STOP reads 1 while a stop requested here has not taken effect (1 bit); reset 0 -/
  stopBit : Bool
  /-- Table 06-13 DRVON, ILIM (1 bit each); reset 0 -/
  drv : Bool
  ilim : Bool
  /-- R177, R185; the start waits for E; it may join at the next boundary; reset 0 -/
  waitE : Bool
  joinable : Bool
  /-- Sequence 06-2 steps 3 and 4; mt still to settle; reset 0 -/
  settle : Nat
  /-- R168; gaps since the first sample; reset 0 -/
  gaps : Nat
  /-- R168; sign of the next input-open test (1 bit); reset 0 -/
  openSign : Bool
  /-- Table 06-8; consecutive mt of A, 0; A, 5; B, 1; B, 2; reset 0 -/
  limitMt : Nat
  lowMt : Nat
  cmMt : Nat
  overMt : Nat
  /-- R173; mt since E in DC excitation, for the readings every 1,024 mt; reset 0 -/
  dcMt : Nat
  /-- R476; modulator reset in progress: mt since the input was last beyond the limit; reset none -/
  modReset : Option Nat
  /-- R167; last demodulated sample; reset 0 -/
  last : Int
  /-- R168, R268; the gap's monitor reading raised A, 1, A, 2 or A, 4 (1 bit); reset 0 -/
  gapBad : Bool
deriving DecidableEq, Repr

/-- 06: excitation, starts and stops. -/
structure Front where
  /-- Table 06-9 MODE, FDIV, BLANK, AMP, DCPOL (2, 3, 3, 2, 1 bits); reset 00b, 100b, 010b, 00b, 0 -/
  mode : BitVec 2
  fdiv : BitVec 3
  blank : BitVec 3
  amp : BitVec 2
  dcpol : Bool
  /-- Table 06-13 REF, GEN, POL (1 bit each); reset 0 -/
  ref : Bool
  gen : Bool
  pol : Bool
  /-- R163; mt since the last reversal; reset 0 -/
  phase : Nat
  /-- the four channels -/
  ch : Vector FeChan 4
  /-- Table 06-11 SYNCM, ARMED (1 bit each), MASK (4 bits); reset 0 -/
  syncm : Bool
  armed : Bool
  mask : BitVec 4
  /-- Table 06-11 CANCEL (1 bit); reset 0 -/
  cancel : Bool
  /-- R179; a cancel is on its way into MOD; it was written after the arming that stands (1 bit each); reset 0 -/
  cancelWait : Bool
  cancelHits : Bool
  /-- R186; engine turns until the arming has surely taken effect in MOD (0 to 2); reset 0 -/
  armWait : Nat
  /-- Table 06-11 GO, STOP; requests that take effect up to and with the one made here, 0 where the bit reads 0; reset 0 -/
  goWait : Nat
  stopWait : Nat
  /-- R177, R178; start and stop requests that have not taken effect, as masks, oldest first; reset [] -/
  starts : List (BitVec 4)
  stops : List (BitVec 4)
  /-- R78; starts held until RUN (4 bits); reset 0 -/
  heldStarts : BitVec 4
  /-- Table 06-8 A, 6; consecutive mt with AVDD out of range; reset 0 -/
  avddMt : Nat
deriving DecidableEq, Repr

/-! ## Forme engine -/

/-- State of one stage (07, Model): its past inputs, its phase and the past sections of an IIR stage. -/
structure StageState where
  /-- HBF, FIR: past inputs, newest first; CIC: its integrators, then its comb delays -/
  hist : List Int
  /-- inputs taken, for the phase of a decimator -/
  taken : Nat
  /-- IIR: x[n-1], x[n-2], y[n-1], y[n-2] of each section, on the guarded grid -/
  sect : List (Int × Int × Int × Int)
deriving DecidableEq, Repr

/-- R207: one sample record. -/
structure Record where
  value : W32
  tag : Word
deriving DecidableEq, Repr

/-- 07: one channel of the forme engine. -/
structure FmChan where
  /-- 07, Model; edit buffer and active forme memory (64 words of 32 bits each); reset 0 (R199) -/
  edit : Vector W32 64
  active : Vector W32 64
  /-- Table 07-9 VALID (1 bit); reset 0 -/
  valid : Bool
  /-- 07, Model; state of the stages; reset [] -/
  stages : List StageState
  /-- R202; samples consumed since the start or restart; reset 0 -/
  consumed : Nat
  /-- R203; final outputs and tap outputs since the start or restart; reset 0 -/
  outs : Nat
  taps : Nat
  /-- R208; SEQ of the next final and tap output (8 bits each); reset 0 -/
  seq : BitVec 8
  tapSeq : BitVec 8
  /-- R204; motion reference, count, STABLE; reset 0 -/
  ref : Int
  n : Nat
  stable : Bool
  /-- Table 07-7 OVR; overrange seen in the running final frame and tap frame (1 bit each); reset 0 -/
  ovrFinal : Bool
  ovrTap : Bool
  /-- R135, R213 B, 2; the last output carried OVR (1 bit); reset 0 -/
  lastOvr : Bool
  /-- R88; the last final output carried UNSETTLED, LEGAL_VOID; an output has been formed; its age in mt; reset 0 -/
  lastUnsettled : Bool
  lastVoid : Bool
  haveOut : Bool
  age : Nat
  /-- R236, Table 08-5; GDTAB as last recomputed (32 elements of 32 bits); reset 0 -/
  gd : Vector W32 32
deriving DecidableEq, Repr

/-- R195, R196: a load of a dynamic-class channel in progress: its image, the ROM preset it comes from, and the engine turns
that it has left. -/
structure DynLoad where
  ch : Chan
  preset : Option (BitVec 3)
  image : Vector W32 64
  left : Nat
deriving DecidableEq, Repr

/-- 07: loader control, sample FIFO. -/
structure Forme where
  ch : Vector FmChan 4
  /-- Table 07-8 SRC, CH, PRESET, RAW (1, 2, 3, 4 bits); reset 0 -/
  src : Bool
  sel : BitVec 2
  preset : BitVec 3
  raw : BitVec 4
  /-- Table 07-8 LOAD: reads 1 until the load ends or the mode changes (1 bit); reset 0 -/
  loadBit : Bool
  /-- R196; load of a dynamic-class channel in progress; reset none -/
  load : Option DynLoad
  /-- Table 07-9 REF, ERRC, ERRW (1, 4, 6 bits); reset 0 -/
  ref : Bool
  errc : BitVec 4
  errw : BitVec 6
  /-- R210; sample FIFO, at most 512 records, oldest first; reset [] -/
  fifo : List Record
  /-- Table 07-10 SINK, WM, CHEN, TAPEN (1, 6, 4, 4 bits); reset 0 -/
  sink : Bool
  wm : BitVec 6
  chen : BitVec 4
  tapen : BitVec 4
  /-- Table 07-11 OVF (1 bit); reset 0 -/
  ovf : Bool
  /-- R211; SMPDAT read position (0 to 2) and snapshot; reset 0, none -/
  pos : Nat
  snap : Option Record
deriving DecidableEq, Repr

/-! ## Cases, tone detector, group delay -/

/-- R232: a cross-fade in progress. -/
structure Fade where
  tgt : Bool
  xflen : Nat
  /-- begun at its boundary b (CASEST.XF) -/
  begun : Bool
  /-- frames completed since b -/
  frames : Nat
deriving DecidableEq, Repr

/-- 08: the cases of one channel. -/
structure CaseChan where
  /-- 08, Model; upper and lower case, 512 words of 32 bits each, canonical list, unlisted reads 0; reset 0 (R231) -/
  upper : List (Nat × W32)
  lower : List (Nat × W32)
  /-- Table 08-9 ACT, RSTF (1 bit each); reset 0 -/
  act : Bool
  rstf : Bool
  /-- R232, Table 08-9 XF; reset none -/
  fade : Option Fade
deriving DecidableEq, Repr

/-- R224: a copy in progress: its channel, the case that it writes, and the engine turns that it has left. -/
structure CaseCopy where
  ch : Chan
  lower : Bool
  left : Nat
deriving DecidableEq, Repr

/-- 08: case control and GRPDLY. -/
structure Cases where
  ch : Vector CaseChan 4
  /-- Table 08-8 TGT, CH, XFLEN (1, 2, 4 bits); reset 0, 00b, 8h -/
  tgt : Bool
  sel : BitVec 2
  xflen : BitVec 4
  /-- R224; copy in progress; reset none -/
  copy : Option CaseCopy
  /-- Table 08-8 CPY: reads 1 until the copy ends or the mode changes (1 bit); reset 0 -/
  copyBit : Bool
  /-- R237, Table 08-13 OUT, CH (1 and 2 bits); reset 0 -/
  gdOut : Bool
  gdCh : BitVec 2
  /-- R237; read position (0 to 2) and snapshot (delay, settle count); reset 0, none -/
  gdPos : Nat
  gdSnap : Option (W32 × Word)
deriving DecidableEq, Repr

/-- R242: a block in progress. -/
structure ToneBlock where
  n : Nat
  re : Int
  im : Int
  skipped : Bool
deriving DecidableEq, Repr

/-- 08: the tone detector. -/
structure Tone where
  /-- R240, Table 08-10 DPH (1 bit) and PIDX (3 bits); reset 0 -/
  dph : Bool
  pidx : BitVec 3
  /-- Table 08-7; parameters 0 to 4 (5 words of 16 bits); reset 0, 0, 0, 0, 003Fh -/
  param : Vector Word 5
  /-- Table 08-10 CH, CONT, THEN (2, 1, 1 bits); reset 0 -/
  sel : BitVec 2
  cont : Bool
  thenBit : Bool
  /-- R241; parameters in use: channel, PINC, THR, N - 1; reset 0 -/
  useCh : BitVec 2
  usePinc : W32
  useThr : W32
  useNm1 : Word
  /-- Table 08-12 BUSY, RDY, OVRN, ABOVE, SKIPD (1 bit each); reset 0 -/
  busy : Bool
  rdy : Bool
  ovrn : Bool
  above : Bool
  skipd : Bool
  /-- Table 08-12 SKIPCNT (8 bits); reset 00h -/
  skipcnt : BitVec 8
  /-- R242; block in progress; reset none -/
  block : Option ToneBlock
  /-- R243; a completed block whose result is due; reset none -/
  due : Option ToneBlock
  /-- R243; number of the next block (16 bits); reset 0 -/
  blockNo : BitVec 16
  /-- R243, Table 04-5 TONERES; magnitude (32 bits), phase, block number (16 bits each); reset 0, DESIGN CHOICE log 18 -/
  resM : W32
  resP : Word
  resNo : Word
deriving DecidableEq, Repr

/-! ## Calibration, Kern -/

/-- R264: interpolated ZERO, SPAN, LIN. -/
structure CalValues where
  z : Int
  s : Int
  l : Int
deriving DecidableEq, Repr

/-- 09: calibration of one channel. -/
structure CalChan where
  /-- R254, 09 Model; calibration buffer (33 elements of 32 bits); reset 0 (R259) -/
  buf : Vector W32 33
  /-- R259, Table 09-7 VALID; stored set; reset none -/
  stored : Option (Vector W32 33)
  /-- R260; working set (33 elements); reset identity, DESIGN CHOICE log 18 -/
  working : Vector W32 33
  /-- R265; values in use and pending; reset identity (log 18), none -/
  cur : CalValues
  pend : Option CalValues
  /-- R263; the selected source shows no valid reading (1 bit); reset 0 -/
  noReading : Bool
deriving DecidableEq, Repr

/-- 09: calibration control and temperatures. -/
structure Cal where
  ch : Vector CalChan 4
  /-- Table 09-6 CH, TXEN, TVIEW, ERRC (2, 1, 1, 3 bits); reset 0 -/
  sel : BitVec 2
  txen : Bool
  tview : Bool
  errc : BitVec 3
  /-- R261, Table 09-7 DIEOK, EXTOK, Table 09-10; valid die and external readings held (16 bits, signed); reset none -/
  die : Option Word
  ext : Option Word
  /-- R172, R261; the conversion in progress is of the external pair (1 bit); reset 0 -/
  extTurn : Bool
deriving DecidableEq, Repr

/-- 09: Kern of one channel. -/
structure KernChan where
  /-- R267; applied coefficients c_0 to c_15 (16 of 32 bits); reset 0 -/
  applied : Vector W32 16
  /-- R270; pending correction; its timeout event has been raised; reset none, 0 -/
  pend : Option (Vector W32 16)
  late : Bool
  /-- Table 09-9 QEST (16 bits); reset FFFFh -/
  q : Word
  /-- R269; Kern samples of the running epoch; reset 0 -/
  samples : Nat
  /-- R268; samples of the present gap, counted once its monitor reading is in order; reset 0 -/
  gapSamples : Nat
  /-- R268; sampling suspended (1 bit); reset 0 -/
  susp : Bool
  /-- R270; applied coefficients go to 0 at the next output boundary (1 bit); reset 0 -/
  zeroNext : Bool
  /-- R271, Table 09-7 KOK as last evaluated (1 bit); reset 0 -/
  kok : Bool
deriving DecidableEq, Repr

/-- 09: Kern control and solves. -/
structure Kern where
  ch : Vector KernChan 4
  /-- Table 09-8 EN, DITH, QGATE, FRZ, QSEL, QLIM (4, 1, 1, 1, 2, 6 bits); reset Fh, 1, 0, 0, 00b, 14h -/
  en : BitVec 4
  dith : Bool
  qgate : Bool
  frz : Bool
  qsel : BitVec 2
  qlim : BitVec 6
  /-- R405; channels whose solve is requested, and st left of the running solve; reset [], 0 -/
  solves : List Chan
  solveLeft : Nat
deriving DecidableEq, Repr

/-! ## Galley -/

/-- Table 10-11 STATE. -/
inductive LinkState where
  | off | run | search | lock | join | member
deriving DecidableEq, Repr

/-- 10: what a HUB holds of one station. -/
structure NodeRec where
  /-- R300; NMASK bit (1 bit); reset 0 -/
  member : Bool
  /-- R292; NN of the NODE (32 bits); reset 0 -/
  nn : W32
  /-- R295; round-trip estimate, in 1/64 LNK tick; none before the first measurement since admission; reset none -/
  rtt : Option Int
  /-- R295; DLY now formed, and DLY last sent to the NODE (1/64 tick, at most 2,048); reset 0 -/
  dly : Nat
  sentDly : Nat
  /-- R300; consecutive slots without a valid uplink; reset 0 -/
  missed : Nat
  /-- R300; a valid uplink arrived in the slot now open (1 bit); reset 0 -/
  heard : Bool
  /-- Table 10-14; some frame arrived in the slot now open (1 bit); reset 0 -/
  seen : Bool
  /-- R301, Table 10-8 word 15; minor version and capabilities in use (8 bits each); reset 0 -/
  minor : Byte
  caps : Byte
  /-- R304, Table 10-8 words 0 to 13 (14 words); reset 0 (R304) -/
  words : Vector Word 14
deriving DecidableEq, Repr

/-- R305: a downlink held for the next origin. -/
structure Held where
  pairs : List (Word × Word)
  sfn : W32
  unicast : Bool
  refused : Bool
deriving DecidableEq, Repr

/-- R305, R307: an accepted access: broadcast, executed on the HUB too, its target, its accesses, and the SFN in which it was
sent. -/
structure RemoteJob where
  bcast : Bool
  localX : Bool
  tgt : Station
  nacc : Nat
  sent : Option W32
deriving DecidableEq, Repr

/-- 10: the Galley link. -/
structure Galley where
  /-- Table 10-10 EN, RNG, TRIM, ADDR (1, 1, 1, 4 bits); reset 0 on a HUB, 1, 1, 0 on a HUB -/
  en : Bool
  rng : Bool
  trim : Bool
  addr : BitVec 4
  /-- R296, Table 10-10; RNG and TRIM in use since the last origin (1 bit each); reset 1 -/
  rngNow : Bool
  trimNow : Bool
  /-- R298; the address taken into use at SEARCH entry (4 bits); reset 0 -/
  useAddr : BitVec 4
  /-- Table 10-11 STATE; reset off -/
  state : LinkState
  /-- Table 10-10; a restart waits for the next origin; RESTART as it reads (1 bit each); reset 0 -/
  restart : Bool
  restartBit : Bool
  /-- Table 10-11 SLOT; current slot, none when OFF; reset none -/
  slot : Option (Fin 17)
  /-- R286; link key latched (128 bits), zero key in use (1 bit), a key has been latched (1 bit); reset 0, 1, 0 -/
  key : BitVec 128
  zkey : Bool
  keyed : Bool
  /-- Table 13-4; a zeroize has cleared the latched key since the last origin (1 bit); reset 0 -/
  keyCut : Bool
  /-- 10, Model; hub time HT at the last origin (48 bits); reset 0 -/
  ht : BitVec 48
  /-- R293; SFN and SN (32 bits each); reset 0, DESIGN CHOICE log 18 -/
  sfn : W32
  sn : W32
  /-- R295, R300; the stations, on a HUB; reset as each field says -/
  node : Vector NodeRec 16
  /-- R305, Table 10-8 instance 0; downlink queue (16 words); reset 0, DESIGN CHOICE log 18 -/
  queue : Vector Word 16
  /-- Table 10-13 BCAST, LOCAL, TGT, RES, NACC (1, 1, 4, 2, 4 bits); reset 0 -/
  bcast : Bool
  localX : Bool
  tgt : BitVec 4
  res : BitVec 2
  nacc : BitVec 4
  /-- Table 10-13 GO: reads 1 until the access ends or the mode changes (1 bit); reset 0 -/
  goBit : Bool
  /-- R305, R307, Table 10-13 BUSY; the accepted access that is being sent or confirmed; reset none -/
  job : Option RemoteJob
  /-- R298, R301; HUB's VER and CAP as last received; a major mismatch was reported in this SEARCH; reset 0 -/
  hubVer : Word
  hubCap : Word
  majorSeen : Bool
  /-- Table 10-9; SFN and HT of the last valid beacon (32 and 48 bits); reset 0 -/
  bSfn : W32
  bHt : BitVec 48
  /-- R293; node nonce (32 bits); reset 0, DESIGN CHOICE log 18 -/
  nn : W32
  /-- R295; transmit advance A (1/64 tick, at most 2,048); reset 0 -/
  adv : Nat
  /-- R296, Table 10-9; phase error e, signed, in 1/64 tick; reset 0 -/
  e : Int
  /-- 10, Model; local estimate L, in 1/64 tick; reset 0 -/
  l : Int
  /-- R298; consecutive valid beacons with |e| < 1 µs in LOCK; reset 0 -/
  good : Nat
  /-- R296; consecutive beacons with |e| ≤ 20 ns; ALGN; reset 0 -/
  aligned : Nat
  algn : Bool
  /-- R298; consecutive missed beacons; reset 0 -/
  missed : Nat
  /-- Table 10-11 ORPH, MINOR (1 bit each); reset 0 -/
  orph : Bool
  minor : Bool
  /-- R303; the next DATA uplink is the first after entry to MEMBER (1 bit); reset 0 -/
  firstUp : Bool
  /-- R305; accesses held for the next origin; reset none -/
  held : Option Held
  /-- Table 10-3 words 1 and 2; RASTAT and RADATA of the next uplink (16 bits each); reset 0 -/
  rastat : Word
  radata : Word
  /-- R288, R289, Table 01-4; link TX FIFO and link RX FIFO (64 words each): the last frame sent on GLTX, and the last one taken
  from GLRX; reset none -/
  tx : Option Frame
  rx : Option Frame
deriving DecidableEq, Repr

/-! ## The whole state -/

/-- What the last command did that a further command of the same st must see (log 48). -/
inductive StMark where
  | none
  /-- PFAIL was raised (R397) -/
  | pfail
  /-- the RTC was set (R401) -/
  | rtcSet
  /-- an INJ write raised its event at once (R156, R403) -/
  | injected
  /-- both, by the accesses of one downlink (R305) -/
  | rtcSetInjected
deriving DecidableEq, Repr

/-- The state of the KW-4816 and the queue of commands that wait. -/
structure State where
  pwr : Power
  sys : Sys
  bus : Bus
  ev : Events
  sl : Seal
  nv : Nv
  imp : Imprint
  sh : Shadow
  bkp : Bkp
  key : Keys
  fk : Frisket
  port : Port
  fe : Front
  fm : Forme
  cs : Cases
  tone : Tone
  cal : Cal
  kern : Kern
  gl : Galley
  /-- The model's own: number of the next free value (log entry 4); reset 4 -/
  draws : Nat
  /-- The model's own: what the st of the last command still decides (log entry 48); reset none -/
  mark : StMark
  /-- Commands that wait, first in first out; reset [] -/
  pending : List Instr
deriving DecidableEq, Repr

/-- Why the machine could stop. No command of this model stops (log entry 3): the manual gives every row an effect, and a
row that the device cannot take in its present state leaves the state unchanged. Safe: a stop proves nothing of a next
state. -/
inductive Fault where
  /-- Raised by no meaning. It would stand for an access that the manual says does not exist; the manual gives such
  accesses an effect (R117, R129). Safe. -/
  | noSuchAccess
deriving DecidableEq, Repr

/-- Why a command could have no meaning. -/
inductive Refusal where
  /-- An arm of `exec` without a meaning; none is left. Safe: nothing is proved of it. -/
  | notModelled (mnemonic : String)
deriving DecidableEq, Repr

/-! ## Reset -/

/-- R322: fifteen bits of a noise draw; an all-zero draw is replaced by 0001h. -/
def lfsrSeed (draw : W32) : BitVec 15 :=
  if draw.setWidth 15 = 0 then 1 else draw.setWidth 15

/-- R325: CASE CALSW with LO 50 and HI 150, ENV with all three sources, then SLEEP. -/
def defaultProgram : Vector W32 32 :=
  ((Vector.replicate 32 (0 : W32)).set 0 0x58009632#32).set 1 0x6E000000#32

/-- R260: NPTS = 1, ZERO = 0, SPAN = 1.0, LIN = 0. -/
def identitySet : Vector W32 33 :=
  ((Vector.replicate 33 (0 : W32)).set 0 1#32).set 3 0x01000000#32

/-- R260 in interpolated form. -/
def identityValues : CalValues := { z := 0, s := 0x01000000, l := 0 }

/-- R370: a bank that has never been written is invalid. -/
def blankBank : Bank := { image := [], number := 0, crc := 0, torn := true }

/-- Table 03-3, Table 04-12 and the tables of 03: first power-on of a blank device. -/
def Power.reset : Power :=
  { phase := .reset, vdd := true, vddio := true, vbat := true, avddOk := true, bkpOnVdd := true
    vcapSwitch := true
    cause := 2, pfiOk := true, role := false, busmode := false, heldReset := none, srst := false, migrated := false
    digested := false, bkpLost := false, rtcLost := true, twinBad := true, releaseEvents := [0x371, 0x3A1]
    pfDiscarded := 0, pfPage := false
    pfTxn := false }

/-- After POR values of Tables 04-7 to 04-13. -/
def Sys.reset : Sys :=
  { hbto := 3, wdrst := false, scratch := 0, hbeat := 0, hbSeen := false, hbFresh := false, patch := false
    patchLog := none, liveOn := false, live := false, liveHeld := false, xrun := true, plllk := true, lfxrun := true
    bkprc := false, lnklk := true, xlost := false, plllost := false, lfxlost := false, modtrim := 0, sets := []
    parity := 0, turns := 0 }

/-- After POR values of Tables 04-14 to 04-18. -/
def Bus.reset : Bus :=
  { hold := false, sub := 0, array := 0, addr := 0, range := false, roref := false, part := false, badchk := false
    snap := none, stage := none, data := 0, driven := false, localSeen := false }

/-- R136 and the After POR values of Tables 05-5 to 05-8. -/
def Events.reset : Events :=
  { sticky := 0, enable := 0, count := Vector.replicate 64 0, ovf := 0, held := 0, legal := 0, sumsel := false
    alen := false, inten := false, area := 0, armed := false, act := false, miss := false, ref := false, abrt := false
    evid := 0, evaluated := false, answered := false, injLive := false, injMode := 0 }

/-- After POR values of Tables 02-4 to 02-6. -/
def Seal.reset : Seal :=
  { denied := false, granted := false, clref := false, digerr := false, token := [], opening := .idle, closing := .idle
    digest := 0, counter := 0, incr := .none, deferred := [] }

/-- A blank array (R355, R377) and the After POR values of Tables 12-10 to 12-12. -/
def Nv.reset : Nv :=
  { mem := [], flaws := [], running := none, sealQueue := [], host := none, legal := [], bufPage := none, bufWords := []
    bpl := false, bp := 0, ring := Vector.replicate 64 none, dph := false, slugWords := [], readWords := none, cnt := 0
    pring := 0, refresh := none }

/-- A blank log (R387) and the After POR values of Table 12-14. -/
def Imprint.reset : Imprint :=
  { next := 0, queue := [], heldSteps := [], last23 := none, last11 := none, lastPatch := none, verify := none, verr := false
    first := 0x1FFF }

/-- R370: neither bank valid, SRAM cleared; After POR values of Table 12-13. -/
def Shadow.reset : Shadow :=
  { sram := [], bankA := blankBank, bankB := blankBank, staging := none, sign := false, busy := false, disc := false
    ref := false, signKey := 0, started := false, closeBit := false, base := 0 }

/-- R81, R389, R390: the BKP domain after its reset. -/
def Bkp.reset : Bkp :=
  { sec := 0, frac := 0, valid := false, stageL := none, stageH := none, snap := none, buffer := [], lost := 0
    migDone := 0, migLost := 0, mailbox := [], flags := [], fullSignal := false, refreshPage := 0
    refreshTicks := 0 }

/-- R68, R337: an empty key store. -/
def Keys.reset : Keys :=
  { sign := 0, link := 0, ver := 0, host := 0, pres := 0, void := true, clear := false, stage := [], dph := false
    rph := false, readPos := 0, slot := 0, stageSlot := 0, op := none, check := [] }

/-- An armed source (R327). -/
def Source.reset : Source := { armed := true, quiet := 0, trip := none }

/-- R325, R347: the guard after a BKP reset, with given LFSR states. -/
def Frisket.reset (lfsr : Vector (BitVec 15) 4) : Frisket :=
  { lmode := 0, caseen := 0, livetest := false, ltrip := 0, ctrip := 0, caltrip := false, etrip := 0, dflt := false
    lktrip := false, bklow := false, bkGood := 0, perr := 0, resp0 := 0xAAA, resp1 := 0x268, respPage := false
    active := defaultProgram, staging := defaultProgram, next := none, papply := false, lmodeNow := 0, lfsr := lfsr
    loopo := Vector.replicate 4 none, src := Vector.replicate 11 Source.reset, glitchA := false, glitchB := false
    calBoth := false, calAge := 0, passOpen := false, fallback := false, zout := false, pulseAlert := false }

/-- After POR values of Table 11-12. -/
def Port.reset : Port :=
  { isOpen := false, pend := false, ref := false, logged := false, ahead := 0, test := false, tap := .testLogicReset
    ir := 1, irShift := 1, cells := 0, preload := 0, idShift := 0, bypass := false, factory := false }

/-- After POR values of Tables 06-10 and 06-12. -/
def FeChan.reset : FeChan :=
  { cls := false, short := false, range := 1, shortNow := false, rangeNow := 1, state := .stopped
    startBit := false, stopBit := false
    drv := false, ilim := false, waitE := false, joinable := false, settle := 0, gaps := 0, openSign := false
    limitMt := 0, lowMt := 0, cmMt := 0, overMt := 0, dcMt := 0, modReset := none, last := 0, gapBad := false }

/-- After POR values of Tables 06-9, 06-11 and 06-13. -/
def Front.reset : Front :=
  { mode := 0, fdiv := 4, blank := 2, amp := 0, dcpol := false, ref := false, gen := false, pol := false, phase := 0
    ch := Vector.replicate 4 FeChan.reset, syncm := false, armed := false, mask := 0
    cancel := false, cancelWait := false, cancelHits := false
    armWait := 0, goWait := 0, stopWait := 0, starts := []
    stops := [], heldStarts := 0, avddMt := 0 }

/-- A channel of the engine with both memories cleared (R199). -/
def FmChan.reset : FmChan :=
  { edit := Vector.replicate 64 0, active := Vector.replicate 64 0, valid := false, stages := [], consumed := 0, outs := 0
    taps := 0, seq := 0, tapSeq := 0, ref := 0, n := 0, stable := false, ovrFinal := false, ovrTap := false
    lastOvr := false, lastUnsettled := false, lastVoid := false, haveOut := false, age := 0
    gd := Vector.replicate 32 0 }

/-- After POR values of Tables 07-8 to 07-12. -/
def Forme.reset : Forme :=
  { ch := Vector.replicate 4 FmChan.reset, src := false, sel := 0, preset := 0, raw := 0, loadBit := false, load := none
    ref := false, errc := 0
    errw := 0, fifo := [], sink := false, wm := 0, chen := 0, tapen := 0, ovf := false, pos := 0, snap := none }

/-- R231: both cases 0, the upper one active. -/
def CaseChan.reset : CaseChan := { upper := [], lower := [], act := false, rstf := false, fade := none }

/-- After POR values of Tables 08-8 and 08-13. -/
def Cases.reset : Cases :=
  { ch := Vector.replicate 4 CaseChan.reset, tgt := false, sel := 0, xflen := 8, copy := none, copyBit := false
    gdOut := false, gdCh := 0, gdPos := 0
    gdSnap := none }

/-- After POR values of Tables 08-7, 08-10 and 08-12. -/
def Tone.reset : Tone :=
  { dph := false, pidx := 0, param := (Vector.replicate 5 (0 : Word)).set 4 0x3F, sel := 0, cont := false
    thenBit := false, useCh := 0, usePinc := 0, useThr := 0, useNm1 := 0, busy := false, rdy := false, ovrn := false
    above := false, skipd := false, skipcnt := 0, block := none, due := none, blockNo := 0, resM := 0, resP := 0
    resNo := 0 }

/-- A channel without a stored set (R259, R260). -/
def CalChan.reset : CalChan :=
  { buf := Vector.replicate 33 0, stored := none, working := identitySet, cur := identityValues, pend := none
    noReading := false }

/-- After POR values of Tables 09-6, 09-7 and 09-10. -/
def Cal.reset : Cal :=
  { ch := Vector.replicate 4 CalChan.reset, sel := 0, txen := false, tview := false, errc := 0, die := none, ext := none
    extTurn := false }

/-- R267, R269: no estimate, coefficients 0. -/
def KernChan.reset : KernChan :=
  { applied := Vector.replicate 16 0, pend := none, late := false, q := 0xFFFF, samples := 0, gapSamples := 0
    susp := false
    zeroNext := false, kok := false }

/-- After POR values of Tables 09-8 and 09-9. -/
def Kern.reset : Kern :=
  { ch := Vector.replicate 4 KernChan.reset, en := 0xF, dith := true, qgate := false, frz := false, qsel := 0
    qlim := 0x14, solves := [], solveLeft := 0 }

/-- A station of which the HUB knows nothing (R300, R304). -/
def NodeRec.reset : NodeRec :=
  { member := false, nn := 0, rtt := none, dly := 0, sentDly := 0, missed := 0, heard := false, seen := false
    minor := 0, caps := 0
    words := Vector.replicate 14 0 }

/-- After POR values of Tables 10-10 to 10-13, for a HUB. -/
def Galley.reset : Galley :=
  { en := false, rng := true, trim := true, addr := 0, rngNow := true, trimNow := true, useAddr := 0, state := .off
    restart := false, restartBit := false, slot := none, key := 0, zkey := true, keyed := false, keyCut := false
    ht := 0, sfn := 0, sn := 0
    node := Vector.replicate 16 NodeRec.reset, queue := Vector.replicate 16 0, bcast := false, localX := false
    tgt := 0, res := 0, nacc := 0, goBit := false, job := none, hubVer := 0, hubCap := 0
    majorSeen := false, bSfn := 0, bHt := 0, nn := 0, adv := 0, e := 0, l := 0, good := 0, aligned := 0, algn := false
    missed := 0, orph := false, minor := false, firstUp := false, held := none, rastat := 0, radata := 0, tx := none, rx := none }

/-- The four LFSR seeds of the power-on whose first noise draw is number `d` (R322). -/
def lfsrSeeds (d : Nat) : Vector (BitVec 15) 4 :=
  #v[lfsrSeed (Config.noise d), lfsrSeed (Config.noise (d + 1)), lfsrSeed (Config.noise (d + 2)),
    lfsrSeed (Config.noise (d + 3))]

/-- The machine right after reset: a blank device at its first power-on, internal reset held (log entry 1). -/
def State.reset : State :=
  { pwr := Power.reset, sys := Sys.reset, bus := Bus.reset, ev := Events.reset, sl := Seal.reset, nv := Nv.reset
    imp := Imprint.reset, sh := Shadow.reset, bkp := Bkp.reset, key := Keys.reset, fk := Frisket.reset (lfsrSeeds 0)
    port := Port.reset, fe := Front.reset, fm := Forme.reset, cs := Cases.reset, tone := Tone.reset, cal := Cal.reset
    kern := Kern.reset, gl := Galley.reset, draws := 4, mark := .none, pending := [] }

end Sys2Proof.Machine
end

