-- ==== Sys2Proof/Machine/Ops.lean ====
section
/-! DEFINITION. Machine/Ops.lean: operations that every unit uses: raising an event, the mailbox, the log queue and its
positions, the legal change, and updates of one channel. -/

namespace Sys2Proof.Machine

/-! ## Where the device stands -/

/-- SYS runs and is not held in reset (R137: no event is raised elsewhere). -/
def sysLive (s : State) : Bool :=
  match s.pwr.phase with
  | .startup | .run | .makeready => true
  | _ => false

/-- The host bus is served (R78, R128, R129, R428). -/
def busLive (s : State) : Bool := sysLive s && s.pwr.vddio

/-- R428: VDDIO also supplies the Galley pins and the composing port. -/
def linkPins (s : State) : Bool := busLive s

/-- MODE.STATE = MAKEREADY. -/
def inMakeready (s : State) : Bool := decide (s.pwr.phase = .makeready)

/-- A Sequence 02-2 that firmware requested runs (SEALST.CLOSING). -/
def isClosing (s : State) : Bool := decide (s.sl.closing ≠ .idle)

/-- The draw of the noise source or the free value with the next number, and the state that has used it (log entry 4). -/
def nextDraw (s : State) : Nat × State := (s.draws, { s with draws := s.draws + 1 })

/-- `f` applied to the state when `c` holds. -/
def when (c : Bool) (f : State → State) (s : State) : State := if c then f s else s

/-- R78, R428, R426: a local bus access: it has its effect while the bus is served. -/
def onBus (f : State → State) (s : State) : State :=
  if busLive s then f { s with bus := { s.bus with localSeen := true, driven := false } } else s

/-- `f i` applied for each `i` of a list, first to last. -/
def forAll {α : Type} (xs : List α) (f : α → State → State) (s : State) : State := xs.foldl (fun t x => f x t) s

/-- The four channels in order. -/
def channels : List Chan := [0, 1, 2, 3]

/-! ## One channel of a unit -/

def setCh {α : Type} {n : Nat} (v : Vector α n) (k : Fin n) (f : α → α) : Vector α n := v.set k.val (f (v.get k)) k.isLt

def modFe (k : Chan) (f : FeChan → FeChan) (s : State) : State := { s with fe := { s.fe with ch := setCh s.fe.ch k f } }
def modFm (k : Chan) (f : FmChan → FmChan) (s : State) : State := { s with fm := { s.fm with ch := setCh s.fm.ch k f } }
def modCs (k : Chan) (f : CaseChan → CaseChan) (s : State) : State :=
  { s with cs := { s.cs with ch := setCh s.cs.ch k f } }
def modCal (k : Chan) (f : CalChan → CalChan) (s : State) : State :=
  { s with cal := { s.cal with ch := setCh s.cal.ch k f } }
def modKern (k : Chan) (f : KernChan → KernChan) (s : State) : State :=
  { s with kern := { s.kern with ch := setCh s.kern.ch k f } }
def modNode (a : Station) (f : NodeRec → NodeRec) (s : State) : State :=
  { s with gl := { s.gl with node := setCh s.gl.node a f } }

/-- The channel is legal class (CHCTL.CLASS). -/
def isLegal (k : Chan) (s : State) : Bool := (s.fe.ch.get k).cls

/-- The channel is STOPPED or HALTED. -/
def atRest (k : Chan) (s : State) : Bool :=
  match (s.fe.ch.get k).state with
  | .stopped | .halted => true
  | _ => false

/-- The channel is RUNNING. -/
def isRunning (k : Chan) (s : State) : Bool := decide ((s.fe.ch.get k).state = .running)

/-! ## Events -/

/-- R135, R144: the sticky bit, the group counter, the overflow flag; whether the counter wrapped. -/
def occurOnce (id : Nat) (e : Events) : Events × Bool :=
  let g := id / 16
  let c := (e.count[g]?.getD 0) + 1
  ({ e with
      sticky := setBit e.sticky id true
      count := e.count.setIfInBounds g c
      ovf := if c = 0 then setBit e.ovf g true else e.ovf },
    decide (c = 0))

/-- R144: a wrap raises event 02Ah, which counts like any other. -/
def occur (id : Nat) (e : Events) : Events :=
  let r := occurOnce id e
  if r.2 then
    let r2 := occurOnce 0x2A r.1
    if r2.2 then (occurOnce 0x2A r2.1).1 else r2.1
  else r.1

/-- The mark of the st says that the RTC was set; that an injection raised its event (log entry 48). -/
def setsRtc (m : StMark) : Bool := decide (m = .rtcSet ∨ m = .rtcSetInjected)
def injects (m : StMark) : Bool := decide (m = .injected ∨ m = .rtcSetInjected)

/-- The mark of a st in which the RTC was set, an event was injected, or both. -/
def markOfSt (rtc inj : Bool) : StMark :=
  if rtc then (if inj then .rtcSetInjected else .rtcSet) else if inj then .injected else .none

/-- R156, R403: an injection raised this event in the same st (log entry 48). -/
def alreadyInjected (id : Nat) (s : State) : Bool := injects s.mark && decide (s.ev.evid.toNat = id)

/-- Event `id` occurs. With an injection of it in the same st it makes one occurrence, which is counted already (R156). Nothing
is raised while SYS does not run (R137). -/
def raise (id : Nat) (s : State) : State :=
  if sysLive s then
    { s with ev := if alreadyInjected id s then { s.ev with sticky := setBit s.ev.sticky id true } else occur id s.ev }
  else s

/-- The event ID of position `p` in the group `base + step × k`. -/
def chanEvent (base step : Nat) (k : Chan) (p : Nat) : Nat := base + step * k.val + p

/-- R173: 040h + 20h × k + p and 050h + 20h × k + p. -/
def feA (k : Chan) (p : Nat) : Nat := chanEvent 0x40 0x20 k p
def feB (k : Chan) (p : Nat) : Nat := chanEvent 0x50 0x20 k p
/-- R213: 0C0h + 20h × k + p and 0D0h + 20h × k + p. -/
def fmA (k : Chan) (p : Nat) : Nat := chanEvent 0xC0 0x20 k p
def fmB (k : Chan) (p : Nat) : Nat := chanEvent 0xD0 0x20 k p
/-- Table 08-14: 140h + 4k + p. -/
def csE (k : Chan) (p : Nat) : Nat := chanEvent 0x140 4 k p
/-- R274: 160h + 10h × k + p. -/
def calE (k : Chan) (p : Nat) : Nat := chanEvent 0x160 0x10 k p
/-- Table 10-14: 1A0h + 10h × a + p. -/
def glE (a : Station) (p : Nat) : Nat := 0x1A0 + 0x10 * a.val + p

/-- A running injection forces the detector of `id` at its next evaluation (R149). -/
def forced (id : Nat) (s : State) : Bool := s.ev.act && decide (s.ev.evid.toNat = id) && !s.ev.evaluated

/-- R151: a forced evaluation shows the condition, unless the detector or its path has failed, which is open (log entry
49). -/
def injected (id : Nat) (s : State) : Bool := forced id s && !Config.pathFailed id

/-- R135: an evaluation makes an occurrence: the condition begins, or an injection forces it (R149, R156). -/
def occursNow (id : Nat) (cond : Bool) (s : State) : Bool := injected id s || (cond && !bitOf s.ev.held id)

/-- R151: the evaluation of the detector of `id` is the injection's, and it made an occurrence or not. -/
def noteEvaluation (id : Nat) (occurs : Bool) (e : Events) : Events :=
  if e.act && decide (e.evid.toNat = id) && !e.evaluated then { e with evaluated := true, answered := occurs } else e

/-- R135: one evaluation of a detector whose condition is `cond`; a condition that persists is one occurrence. An injection
forces the condition for this evaluation (R149, R156). -/
def detect (id : Nat) (cond : Bool) (s : State) : State :=
  let o := occursNow id cond s
  let s1 := if o then raise id s else s
  { s1 with ev := noteEvaluation id o { s1.ev with held := setBit s1.ev.held id cond } }

/-- R149: a comparison as its detector takes it at this evaluation: as it is, or as an injection forces it. -/
def shows (id : Nat) (cond : Bool) (s : State) : Bool := cond || injected id s

/-- One evaluation of a detector that reports each time its comparison holds, or is forced (R149, R156). -/
def edge (id : Nat) (fires : Bool) (s : State) : State :=
  let o := shows id fires s
  let s1 := if o then raise id s else s
  { s1 with ev := noteEvaluation id o s1.ev }

/-- The condition of a detector as last seen. -/
def setHeld (id : Nat) (b : Bool) (s : State) : State := { s with ev := { s.ev with held := setBit s.ev.held id b } }

/-- R139: event of parity memory `i` of Table 05-2: memories 0 to 15 have events 3C0h to 3CFh, 16 has 3E2h. -/
def parityEvent (i : Nat) : Nat := if i < 16 then 0x3C0 + i else 0x3E2

/-- R139: parity of one memory at a read of it. The errors that arise come with each turn; while the crystal is stopped no turn
comes, and whether a read finds one is open (log entry 49). -/
def parityRead (i : Nat) (s : State) : State :=
  if s.sys.xrun then detect (parityEvent i) (bitOf s.sys.parity i) s
  else
    let d := nextDraw s
    detect (parityEvent i) (Config.parityError d.1 i) d.2

/-- The memories of Table 05-2 that hold what a channel converts with: its forme, and the upper or the lower case. -/
def formeParity (k : Chan) : Nat := k.val
def caseParity (k : Chan) (lower : Bool) : Nat := if lower then 8 + k.val else 4 + k.val

/-- R139: the case in use of a channel is read. -/
def readCase (k : Chan) (s : State) : State := parityRead (caseParity k (s.cs.ch.get k).act) s

/-- R139, Table 02-3: the reads of a legal digest: forme and case in use of each legal-class channel. -/
def readLegal (s : State) : State :=
  forAll channels (fun k t => if isLegal k t then readCase k (parityRead (formeParity k) t) else t) s

/-- R173: marks event `id` as raised on a legal-class channel. -/
def markLegal (id : Nat) (s : State) : State := { s with ev := { s.ev with legal := setBit s.ev.legal id true } }

/-- A front-end fault of channel `k` that is a legal fault on the legal class (Table 06-8). -/
def detectFault (k : Chan) (id : Nat) (cond : Bool) (s : State) : State :=
  let s1 := detect id cond s
  if occursNow id cond s && isLegal k s then markLegal id s1 else s1

/-- R140: sticky bits cleared; an event whose sticky bit is clear marks no legal fault. -/
def clearSticky (mask : BitVec 1024) (e : Events) : Events :=
  { e with sticky := e.sticky &&& ~~~mask, legal := e.legal &&& ~~~mask }

/-! ## Events of the BKP domain -/

/-- R34: an event of the BKP domain with its timestamp. A full mailbox leaves it pending, once for each event; the first
pending flag signals SYS. R137: nothing is posted in LOCKUP or in the power-fail sequence. -/
def post (id : Nat) (s : State) : State :=
  match s.pwr.phase with
  | .unpowered | .lockup | .powerFail => s
  | _ =>
    let m : Mail := { event := id, time := s.bkp.sec, frac := s.bkp.frac }
    if s.bkp.mailbox.length < 16 ∧ s.bkp.flags = [] then
      { s with bkp := { s.bkp with mailbox := s.bkp.mailbox ++ [m] } }
    else if s.bkp.flags.any (fun x => x.event == id) then s
    else
      { s with bkp := { s.bkp with
          flags := s.bkp.flags ++ [m]
          fullSignal := s.bkp.fullSignal || s.bkp.flags.isEmpty } }

/-- `detect` for a detector of the BKP domain, whose event goes through the mailbox. -/
def detectBkp (id : Nat) (cond : Bool) (s : State) : State :=
  let o := occursNow id cond s
  let s1 := if o then post id s else s
  { s1 with ev := noteEvaluation id o { s1.ev with held := setBit s1.ev.held id cond } }

/-! ## The seal record -/

/-- Table 02-1 from the 64-bit value. -/
def SealRecord.ofValue (v : BitVec 64) : SealRecord :=
  { fails := v.setWidth 16, isOpen := bitOf v 16, voids := bitOf v 17, lkstart := (v >>> 32).setWidth 32 }

/-- The 64-bit value of Table 02-1. -/
def SealRecord.value (r : SealRecord) : BitVec 64 :=
  BitVec.ofNat 64 (r.fails.toNat + 65536 * flag r.isOpen + 131072 * flag r.voids + 4294967296 * r.lkstart.toNat)

/-- The current value of a ring; 0 where the ring is empty. -/
def ringValue (r : Fin 64) (s : State) : BitVec 64 :=
  match s.nv.ring.get r with
  | some slot => slot.value
  | none => 0

/-- R36: the seal record in slug ring 1. -/
def sealRecord (s : State) : SealRecord := SealRecord.ofValue (ringValue 1 s)

/-- A seal session is open. -/
def sessionOpen (s : State) : Bool := (sealRecord s).isOpen

/-- R42: a lockout is active for a record at a reading of the RTC. -/
def lockoutActive (r : SealRecord) (now : W32) : Bool :=
  decide (5 ≤ r.fails.toNat ∧ r.lkstart.toNat ≤ now.toNat ∧ now.toNat < r.lkstart.toNat + 3600)

/-- R42, R43: the seal unit treats the record as holding a lockout: one is active, or the RTC was lost and FAILS ≥ 5. -/
def lockoutHolds (r : SealRecord) (now : W32) (s : State) : Bool :=
  lockoutActive r now || (s.pwr.rtcLost && decide (5 ≤ r.fails.toNat))

/-! ## Imprint: entries and positions -/

/-- An entry that arises now. -/
def nowEntry (code : Byte) (data : W32) (s : State) : Entry :=
  { code := code, time := s.bkp.sec, frac := s.bkp.frac, data := data }

/-- Table 12-7: the sixteen bytes of an entry at position `n`. -/
def entryBytes (n : Nat) (e : Entry) : List Byte :=
  let b := leBytes 4 n ++ leBytes 4 e.time.toNat ++ [e.frac, e.code] ++ leBytes 4 e.data.toNat
  b ++ leBytes 2 (crc16 b).toNat

/-- Codes 30h to 38h, which the reserve takes (Table 12-9). -/
def isTrip (c : Byte) : Bool := decide (0x30 ≤ c.toNat ∧ c.toNat ≤ 0x38)

/-- R385: entries of the seal unit and of the legal stores. -/
def isKept (c : Byte) : Bool :=
  decide ((0x10 ≤ c.toNat ∧ c.toNat ≤ 0x14) ∨ (0x20 ≤ c.toNat ∧ c.toNat ≤ 0x23) ∨ c.toNat = 0x60)

/-- R386: the position after a marker's own. -/
def skipMarker (p : Nat) : Nat := if p = 3968 then 3969 else if p = 4031 then 4032 else p

/-- What Table 12-9 and R46 say of an entry whose turn comes at position `p`. -/
inductive Fate where
  | takes
  /-- stays queued for the reserve -/
  | waits
  /-- not written, event 36Fh (R46) -/
  | held
  /-- not stored, event 3B0h (R386) -/
  | none
deriving DecidableEq, Repr

/-- Table 12-9, R46; `p` is no marker's position. -/
def fate (isOpen : Bool) (c : Byte) (p : Nat) : Fate :=
  if p < 4030 then .takes
  else if p = 4030 then
    if isOpen then (if c = 0x11 then .takes else if isTrip c then .waits else .held) else .takes
  else if p < 4096 then (if isTrip c then .takes else .none)
  else .none

/-- R46: the next position once every queued entry has taken its own. -/
def positionAfter (isOpen : Bool) : Nat → List Entry → Nat
  | p, [] => p
  | p, e :: rest =>
    match fate isOpen e.code (skipMarker p) with
    | .takes => positionAfter isOpen (skipMarker p + 1) rest
    | _ => positionAfter isOpen p rest

/-- R79, R422, R453: what start-up still writes ahead of the queue: the backup buffer, code 03h, code 61h or 62h, code 01h. -/
def startupEntries (s : State) : List Entry :=
  if s.pwr.phase = .startup ∧ s.pwr.migrated = false then
    let counted := decide (s.bkp.migDone ≠ 0 ∨ s.bkp.lost + s.bkp.migLost ≠ 0) || !s.bkp.buffer.isEmpty
    let patch := match s.sys.patchLog with
      | some (code, data) => if s.imp.lastPatch.map (·.2) = some data then [] else [nowEntry code data s]
      | none => []
    s.bkp.buffer ++ (if counted then [nowEntry 0x03 0 s] else []) ++ patch ++ [nowEntry 0x01 0 s]
  else []

/-- The entries that are to take positions: those of start-up, the queue, then those whose step is held (R385). -/
def awaiting (s : State) : List Entry := startupEntries s ++ s.imp.queue ++ s.imp.heldSteps

/-- The position that an entry queued now would take. -/
def nextPosition (s : State) : Nat := skipMarker (positionAfter (sessionOpen s) s.imp.next (awaiting s))

/-- R385: places of the Imprint queue, and those of them that entries of other codes may take. -/
def queuePlaces : Nat := 32
def commonPlaces : Nat := 28

/-- R385: `n` places of the queue are free, so that a step that queues as many kept entries need not be held. -/
def placesFree (n : Nat) (s : State) : Bool := decide (s.imp.queue.length + s.imp.heldSteps.length + n ≤ queuePlaces)

/-- R385: an entry takes a place of the queue. A kept entry that finds all places taken waits for one, and what follows from its
commit with it: the increment of a legal change, and the report of a commit that has ended (log entry 17). An entry of another
code that finds only the kept places free is not stored. -/
def enterQueue (e : Entry) (s : State) : State :=
  if isKept e.code then
    if s.imp.heldSteps.isEmpty && decide (s.imp.queue.length < queuePlaces) then
      { s with imp := { s.imp with queue := s.imp.queue ++ [e] } }
    else { s with imp := { s.imp with heldSteps := s.imp.heldSteps ++ [e] } }
  else if s.imp.queue.length < commonPlaces then { s with imp := { s.imp with queue := s.imp.queue ++ [e] } }
  else raise 0x3B0 s

/-- R386, R46: an entry joins the Imprint queue, or is not stored. -/
def queueEntry (e : Entry) (s : State) : State :=
  match fate (sessionOpen s) e.code (nextPosition s) with
  | .held => raise 0x36F s
  | .none => raise 0x3B0 s
  | _ => enterQueue e s

/-- R385: steps that were held go on as places of the queue free. -/
def admitHeld (s : State) : State :=
  let n := queuePlaces - s.imp.queue.length
  { s with imp := { s.imp with queue := s.imp.queue ++ s.imp.heldSteps.take n, heldSteps := s.imp.heldSteps.drop n } }

/-- R389: whether the backup buffer stores an entry while `free` of its slots are free. -/
def bufferTakes (c : Byte) (free : Nat) : Bool :=
  if c = 0x33 then decide (1 ≤ free) else if isTrip c then decide (2 ≤ free) else decide (5 ≤ free)

/-- R389: an entry that is not stored is counted, up to FFFFh. -/
def countLost (b : Bkp) : Bkp := { b with lost := min 0xFFFF (b.lost + 1) }

/-- R389: an entry goes to the backup buffer or is counted. -/
def bufferEntry (e : Entry) (s : State) : State :=
  if bufferTakes e.code (16 - s.bkp.buffer.length) then
    { s with bkp := { s.bkp with buffer := s.bkp.buffer ++ [e] } }
  else { s with bkp := countLost s.bkp }

/-- R389, R385: an entry goes to the backup buffer in LOCKUP and while SYS is held in reset, else to the Imprint queue. -/
def logEntry (e : Entry) (s : State) : State :=
  match s.pwr.phase with
  | .unpowered => s
  | .lockup | .reset => bufferEntry e s
  | _ => queueEntry e s

/-- An entry with the time of now. -/
def logNow (code : Byte) (data : W32) (s : State) : State := logEntry (nowEntry code data s) s

/-! ## Legal changes -/

/-- R46: `n` entries from position `p` on all stay below position 4,030. -/
def roomFrom : Nat → Nat → Bool
  | 0, _ => true
  | n + 1, p => decide (skipMarker p < 4030) && roomFrom n (skipMarker p + 1)

/-- R46: a legal change with `own` entries of its own needs one more for its code 23h where it is the first. -/
def legalRoom (own : Nat) (s : State) : Bool :=
  roomFrom (own + if s.sl.incr = .none then 1 else 0) (positionAfter (sessionOpen s) s.imp.next (awaiting s))

/-- R44: the first legal change of a session queues code 23h with the new value of the legal event counter. -/
def beginChange (s : State) : State :=
  if s.sl.incr = .none then
    let v := s.sl.counter + 1
    let s1 := queueEntry (nowEntry 0x23 v s) s
    { s1 with sl := { s1.sl with incr := .logging v } }
  else s

/-- R44: the increment has committed, so that the change itself may commit. -/
def changeFree (s : State) : Bool := decide (s.sl.incr = .done)

/-- R12, R44, R46, R47: a write that would change RWM fields of register `a`. In RUN and start-up it is ignored with event
024h; during closing or for want of log room with event 014h; else it is applied once the increment has committed. A write
that restores the present value while an earlier change still waits is no change and leaves that change waiting: R44 does
not say which stands (DESIGN CHOICE, log entry 23). -/
def rwmWrite (changes : Bool) (a : BitVec 6) (v : Word) (apply : State → State) (s : State) : State :=
  if !changes then s
  else if !inMakeready s then raise 0x24 s
  else if isClosing s || !legalRoom 0 s then raise 0x14 s
  else
    let s1 := beginChange s
    if changeFree s1 then apply s1
    else { s1 with sl := { s1.sl with deferred := s1.sl.deferred ++ [.reg a v] } }

/-! ## Pages and partitions -/

/-- Byte `a` of the EEPROM array. -/
def nvByte (s : State) (a : Nat) : Byte := cellRead 0xFF s.nv.mem a

/-- `n` bytes of the array from byte `a`. -/
def nvBytes (s : State) (a n : Nat) : List Byte := cellRange 0xFF s.nv.mem a n

/-- Byte `a` of the shadow SRAM. -/
def shadowByte (s : State) (a : Nat) : Byte := cellRead 0 s.sh.sram a

/-- Table 12-1: the page lies in partition L. -/
def inL (p : Nat) : Bool := decide (512 ≤ p ∧ p ≤ 767)

/-- Table 12-4: the page is block-protected. -/
def isProtected (bp : BitVec 2) (p : Nat) : Bool :=
  match bp.toNat with
  | 0 => false
  | 1 => decide (384 ≤ p ∧ p ≤ 511)
  | 2 => decide (256 ≤ p ∧ p ≤ 511)
  | _ => decide (p ≤ 511)

/-! ## Cases -/

/-- The case named by `lower` (0 upper, 1 lower) of a channel. -/
def caseOf (c : CaseChan) (lower : Bool) : List (Nat × W32) := if lower then c.lower else c.upper

/-- The active case of a channel. -/
def activeCase (c : CaseChan) : List (Nat × W32) := caseOf c c.act

/-- A channel with the named case replaced. -/
def setCase (lower : Bool) (m : List (Nat × W32)) (c : CaseChan) : CaseChan :=
  if lower then { c with lower := m } else { c with upper := m }

/-! ## Stores in progress -/

/-- The channel of a forme load, or of a case store that a preset load started (FMST.BUSY: R197, R228). -/
def StoreKind.isForme : StoreKind → Bool
  | .forme .. => true
  | .case _ _ _ _ _ preset => preset
  | .cal .. => false

/-- A case store of channel `k`. -/
def StoreKind.isCaseOf (k : Chan) : StoreKind → Bool
  | .case j .. => decide (j = k)
  | _ => false

/-- A calibration store of channel `k`. -/
def StoreKind.isCalOf (k : Chan) : StoreKind → Bool
  | .cal j .. => decide (j = k)
  | _ => false

/-- A forme load or a case store of channel `k`, which counts as a load (R200, R227, R228). -/
def StoreKind.isLoadOf (k : Chan) : StoreKind → Bool
  | .forme j .. => decide (j = k)
  | .case j .. => decide (j = k)
  | .cal .. => false

/-- A forme load whose image has still to become active (Sequence 07-1, steps 1 to 4). -/
def StoreKind.isImageOf (k : Chan) : StoreKind → Bool
  | .forme j .. => decide (j = k)
  | _ => false

/-- R196: a load of a dynamic-class channel is in progress. -/
def dynLoading (k : Chan) (s : State) : Bool := s.fm.load.any fun d => decide (d.ch = k)

/-- FMST.BUSY. -/
def formeBusy (s : State) : Bool := s.fm.load.isSome || s.nv.legal.any fun l => l.kind.isForme

/-- A load of the channel is in progress and its forme is still to become active. -/
def formeComing (k : Chan) (s : State) : Bool := dynLoading k s || s.nv.legal.any fun l => l.kind.isImageOf k

/-- CASEST.BUSY of a channel: a legal case store runs. -/
def caseBusy (k : Chan) (s : State) : Bool := s.nv.legal.any fun l => l.kind.isCaseOf k

/-- CALST.BUSY of a channel: a calibration store runs. -/
def calBusy (k : Chan) (s : State) : Bool := s.nv.legal.any fun l => l.kind.isCalOf k

/-- A forme load of channel `k`, or the case store of its preset load (R194, R197, R228). -/
def StoreKind.isFormeOf (k : Chan) (x : StoreKind) : Bool := x.isForme && x.isLoadOf k

/-- A forme load of the channel is in progress. -/
def formeLoading (k : Chan) (s : State) : Bool := dynLoading k s || s.nv.legal.any fun l => l.kind.isFormeOf k

/-- A load or store counts as a load in progress of the channel. -/
def loadBusy (k : Chan) (s : State) : Bool := dynLoading k s || s.nv.legal.any fun l => l.kind.isLoadOf k

/-! ## A NODE -/

/-- R284: the role sampled at reset release. -/
def isNode (s : State) : Bool := s.pwr.role

end Sys2Proof.Machine
end

