-- ==== Sys2Proof/Machine/Flags.lean ====
section
/-! DEFINITION. Machine/Flags.lean: what follows from the state: which events exist, summaries and pins, legal faults, the
LIVE conditions, and the check of LIVE that ends every command. -/

namespace Sys2Proof.Machine

/-! ## Event map -/

/-- R138: the event is not reserved (Tables 05-1, 05-2 and the tables of the owning chapters). -/
def eventExists (node : Bool) (id : Nat) : Bool :=
  let g := id / 16
  let p := id % 16
  if g = 0 then decide (p ≤ 0xA)
  else if g = 1 then decide (p ≤ 7)
  else if g = 2 then decide (p ≤ 0xB)
  else if g = 3 then false
  else if g < 0xC then
    if g % 2 = 0 then decide (p ≤ 8 ∨ (p = 9 ∧ g = 4)) else decide (p ≤ 8 ∨ (12 ≤ p ∧ p ≤ 14 ∧ g = 5))
  else if g < 0x14 then
    if g % 2 = 0 then decide (p ≤ 7) else decide (p ≤ 4 ∨ ((p = 5 ∨ p = 6) ∧ g = 0xD))
  else if g = 0x14 then true
  else if g = 0x15 then decide (p ≤ 6)
  else if g < 0x1A then decide (p ≤ 12 ∨ (p = 13 ∧ g = 0x16))
  else if g = 0x1A then if node then decide (p ≠ 9 ∧ p ≠ 10 ∧ p ≠ 11) else decide (p = 12)
  else if g < 0x2A then !node && decide (p ≠ 3 ∧ p ≤ 13)
  else if g = 0x2A then decide (p ≤ 8 ∨ p = 10 ∨ p = 11)
  else if g < 0x2E then false
  else if g < 0x32 then decide (p ≤ 3)
  else if g = 0x32 then decide (p ≤ 7)
  else if g = 0x33 then decide (p ≤ 0xA)
  else if g = 0x34 then decide (p ≤ 0xD)
  else if g = 0x35 then decide (p ≤ 6)
  else if g = 0x36 then true
  else if g = 0x37 then decide (p ≤ 8)
  else if g = 0x38 then decide (p ≤ 3)
  else if g = 0x39 then decide (p ≤ 5)
  else if g = 0x3A then decide (p ≤ 2)
  else if g = 0x3B then decide (p = 0)
  else if g = 0x3C then true
  else if g = 0x3D then decide (p ≤ 4)
  else if g = 0x3E then decide (p ≤ 2)
  else if g = 0x3F then decide (p ≤ 3)
  else false

/-- The bits of group `g` that exist. -/
def groupMask (node : Bool) (g : Nat) : Word :=
  (List.range 16).foldl (fun w p => setBit w p (eventExists node (16 * g + p))) 0

/-- The sixteen bits of a group. -/
def groupBits (v : BitVec 1024) (g : Nat) : Word := (v >>> (16 * g)).setWidth 16

/-- A group's bits placed among the 1,024. -/
def placeGroup (w : Word) (g : Nat) : BitVec 1024 := (w.setWidth 1024) <<< (16 * g)

/-- R141: the group has an event with its sticky bit and its enable. -/
def groupPending (e : Events) (g : Nat) : Bool := decide (groupBits (e.sticky &&& e.enable) g ≠ 0)

/-- Table 05-1: the area of a group. -/
def areaOf (g : Nat) : Nat :=
  if g ≤ 1 then 0 else if g ≤ 3 then 1 else if g ≤ 0xB then 2 else if g ≤ 0x13 then 3 else if g ≤ 0x15 then 4
  else if g ≤ 0x19 then 5 else if g ≤ 0x29 then 6 else if g ≤ 0x2D then 7 else if g ≤ 0x35 then 8
  else if g ≤ 0x3B then 9 else 10

/-- Groups 0 to 63 of an area sent to ALERT# (`alert`) or to INT#, with a pending event (R142). -/
def routedPending (alert : Bool) (e : Events) : Bool :=
  (List.range 64).any fun g => decide (bitOf e.area (areaOf g) = alert) && groupPending e g

/-- R141: EVSUM_n. -/
def summary (n : Nat) (e : Events) : Word :=
  (List.range 16).foldl
    (fun w j => setBit w j (if e.sumsel then bitOf e.ovf (16 * n + j) else groupPending e (16 * n + j))) 0

/-- FKRESP of a source (Table 11-10): 0 LOG, 1 LOG+ALERT, 2 LOG+ZEROIZE. -/
def responseOf (f : Frisket) (src : Nat) : Nat :=
  if src < 6 then fieldOf f.resp0 (2 * src) 2 else fieldOf f.resp1 (2 * (src - 6)) 2

/-- R334: a trip bit is set for a source whose response is LOG+ALERT or LOG+ZEROIZE. -/
def tripAlert (f : Frisket) : Bool :=
  (List.range 4).any (fun k => bitOf f.ltrip k && decide (responseOf f k ≠ 0)) ||
  (List.range 2).any (fun k => bitOf f.ctrip k && decide (responseOf f (4 + k) ≠ 0)) ||
  (f.caltrip && decide (responseOf f 6 ≠ 0)) ||
  (List.range 4).any (fun j => bitOf f.etrip j && decide (responseOf f (7 + j) ≠ 0))

/-- R142: INT# is driven low. -/
def intLow (s : State) : Bool := busLive s && s.ev.inten && routedPending false s.ev

/-- R142, R143, R334: ALERT# is driven low; it is released where SYS does not run and without VDDIO (Table 03-4). -/
def alertLow (s : State) : Bool :=
  busLive s && ((s.ev.alen && routedPending true s.ev) || tripAlert s.fk || s.fk.pulseAlert)

/-! ## Legal faults and LIVE -/

/-- The sticky bit of an event. -/
def isSticky (id : Nat) (s : State) : Bool := bitOf s.ev.sticky id

/-- R271: KOK of a channel. -/
def kernOk (k : Chan) (s : State) : Bool :=
  decide (s.kern.qlim = 0) ||
  (bitOf s.kern.en k.val && decide ((s.kern.ch.get k).q.toNat ≤ 10 * s.kern.qlim.toNat))

/-- R254, R261: the reading of the source that a set selects by TSRC. -/
def readingOf (set : Vector W32 33) (s : State) : Option Word :=
  if bitOf (set.get 0) 4 then (if s.cal.txen then s.cal.ext else none) else s.cal.die

/-- R263: a channel that has started and whose working set selects a source without a valid reading: its event is raised
each time the condition begins, and it goes on as at point 0. -/
def noReadingCheck (k : Chan) (s : State) : State :=
  let c := s.cal.ch.get k
  let bad := !atRest k s && (readingOf c.working s).isNone
  let point0 : CalValues :=
    { z := (c.working.get 2).toInt, s := (c.working.get 3).toNat, l := (c.working.get 4).toInt }
  let s1 := modCal k (fun x => { x with
    noReading := bad, pend := if bad && !c.noReading then some point0 else x.pend }) s
  if bad && !c.noReading then raise (calE k 6) s1 else s1

/-- R139: legal faults of the self-check events. -/
def selfCheckFault (s : State) : Bool :=
  [0x3CC, 0x3CE, 0x3CF, 0x3D0, 0x3D1, 0x3D4, 0x3E0, 0x3E1].any (fun id => isSticky id s) ||
  channels.any fun k =>
    isLegal k s &&
      (isSticky (0x3C0 + k.val) s ||
       (isSticky (0x3C4 + k.val) s && !(s.cs.ch.get k).act) || (isSticky (0x3C8 + k.val) s && (s.cs.ch.get k).act))

/-- R173: a legal-fault event of the front-end groups of a channel is set. -/
def feFault (k : Chan) (s : State) : Bool :=
  decide ((groupBits (s.ev.sticky &&& s.ev.legal) (4 + 2 * k.val)) ≠ 0 ∨
    (groupBits (s.ev.sticky &&& s.ev.legal) (5 + 2 * k.val)) ≠ 0)

/-- R231, R260, R263, R271: legal faults of cases, calibration and Kern of a legal-class channel. -/
def channelFault (k : Chan) (s : State) : Bool :=
  isLegal k s &&
    (isSticky (csE k 3) s || isSticky (calE k 3) s || ((s.cal.ch.get k).noReading && !atRest k s) ||
     (s.kern.qgate && !kernOk k s))

/-- R286, R298: legal faults of the link. -/
def linkFault (s : State) : Bool :=
  s.gl.en && (s.gl.zkey || (isNode s && decide (s.gl.state ≠ .member)))

/-- R125: the legal fault of the clocks. -/
def clockFault (s : State) : Bool := !s.sys.xrun || !s.sys.plllk || s.sys.xlost || s.sys.plllost

/-- Table 03-6: some legal fault is present. -/
def legalFault (s : State) : Bool :=
  s.sl.digerr || s.key.void || clockFault s || selfCheckFault s || linkFault s ||
  channels.any fun k => feFault k s || channelFault k s

/-- R88: the latest output of a running legal-class channel is in order. -/
def outputFresh (k : Chan) (s : State) : Bool :=
  let c := s.fm.ch.get k
  c.haveOut && !c.lastUnsettled && !c.lastOvr && !c.lastVoid && decide (c.age ≤ 2 * decimation (formeOps c.active))

/-- Table 03-6, Mode. -/
def liveMode (s : State) : Bool := decide (s.pwr.phase = .run)

/-- Table 03-6, Legal channels. -/
def liveChannels (s : State) : Bool :=
  (channels.any fun k => isLegal k s && isRunning k s) &&
  channels.all fun k => !(isLegal k s && isRunning k s) || outputFresh k s

/-- R88: every condition of Table 03-6 holds. -/
def liveAll (s : State) : Bool := liveMode s && liveChannels s && !legalFault s && s.sys.hbFresh

/-- R91: the conditions after a step. A condition that fails while LIVE runs stops it, with event 003h. -/
def liveCheck (s : State) : State :=
  let ok := liveAll s
  let s1 :=
    if !ok && s.sys.liveOn then
      raise 3 { s with sys := { s.sys with liveOn := false, live := false } }
    else s
  { s1 with sys := { s1.sys with liveHeld := ok } }

/-! ## Injection -/

/-- The channel of a front-end, forme or calibration event. -/
def eventChan (base step id : Nat) : Chan := ⟨(id - base) / step % 4, Nat.mod_lt _ (by decide)⟩

/-- Table 10-14: the positions that report a comparison of the link: CRC, CMAC, R293, an empty slot or a missed beacon, the
versions, ranging, the alignment (log entry 21). -/
def isLinkDetector (p : Nat) : Bool := decide ((1 ≤ p ∧ p ≤ 4) ∨ p = 7 ∨ p = 8 ∨ p = 10 ∨ p = 11 ∨ p = 14 ∨ p = 15)

/-- R475: a detector of the link evaluates: the link runs, and for ALGN and MODTRIM a NODE trims. -/
def linkEvaluates (id : Nat) (s : State) : Bool :=
  decide (s.gl.state ≠ .off) && (s.gl.trimNow || !decide (id = 0x1AE ∨ id = 0x1AF ∨ id = 0x2A8)) &&
    (decide (id ≠ 0x2A8) || (isNode s && decide (s.gl.state = .member)))

/-- R151, R475: the event has a detector that a step of its own evaluates; the others report an action (R149) or are
evaluated in every st (log entry 21). -/
def isDetector (id : Nat) : Bool :=
  let g := id / 16
  let p := id % 16
  if 4 ≤ g ∧ g ≤ 0xB then if g % 2 = 0 then decide (p ≤ 8) else decide (p ≤ 3 ∨ (12 ≤ p ∧ p ≤ 14))
  else if 0xC ≤ g ∧ g ≤ 0x13 then decide (g % 2 = 1 ∧ p ≤ 4)
  else if 0x16 ≤ g ∧ g ≤ 0x19 then decide (4 ≤ p ∧ p ≤ 12 ∧ p ≠ 7)
  else if 0x2E ≤ g ∧ g ≤ 0x31 then decide (p ≤ 1)
  else if g = 0x32 then decide (p = 0 ∨ p = 1 ∨ p = 4 ∨ p = 5)
  else if g = 0x33 then decide (p ≤ 9)
  else if g = 0x3C then true
  else if g = 0x3D then decide (p = 3 ∨ p = 4)
  else if g = 0x3E then decide (p ≤ 2)
  else if 0x1A ≤ g ∧ g ≤ 0x29 then isLinkDetector p
  else decide ((0x151 ≤ id ∧ id ≤ 0x154) ∨ id = 0x2A5 ∨ id = 0x2A8 ∨ id = 0x368 ∨ id = 0x369)

/-! ### Paths of a Frisket program -/

/-- Values of each step from those of the steps behind it; the last value is that of the end of the program. -/
def scanBack {α : Type} (atEnd : α) (f : Nat → W32 → List α → α) : Nat → List W32 → List α
  | _, [] => [atEnd]
  | i, w :: rest =>
    let r := scanBack atEnd f (i + 1) rest
    f i w r :: r

/-- The values at the places where a path may go on after step `i`. -/
def following {α : Type} (atEnd : α) (i : Nat) (w : W32) (r : List α) : List α :=
  match fieldOf w 28 4 with
  | 0 => [atEnd]
  | 7 =>
    let tgt := (r[fieldOf w 0 5 - i - 1]?).getD atEnd
    if fieldOf w 26 2 = 0 then [tgt] else [tgt, r.headD atEnd]
  | _ => [r.headD atEnd]

/-- From each step on some path comes to a step that satisfies `hit` before one that satisfies `stop`. -/
def reaches (hit stop : W32 → Bool) (ws : List W32) : List Bool :=
  scanBack false (fun i w r => hit w || (!stop w && (following false i w r).any id)) 0 ws

/-- The step has the opcode and selects bit `b`. -/
def selectsBit (op b : Nat) (w : W32) : Bool := decide (fieldOf w 28 4 = op) && bitOf w b

/-- The program of the next pass (R324) comes, on some path, to a step of opcode `op` that selects bit `b`. -/
def programRuns (op b : Nat) (f : Frisket) : Bool :=
  (reaches (selectsBit op b) (fun _ => false) (f.next.getD f.active).toList).headD false

/-- R321, R327, R475, Table 11-1: the next pass evaluates the detector of a Frisket event: position `p` of group `g`. -/
def frisketEvaluates (g p : Nat) (s : State) : Bool :=
  if g ≤ 0x31 then
    decide (fieldOf s.fk.lmode (2 * (g - 0x2E)) 2 ≠ 0) && programRuns (if p = 0 then 3 else 4) (24 + (g - 0x2E)) s.fk
  else if g = 0x32 then bitOf s.fk.caseen (p / 4) && programRuns 5 (25 + p / 4) s.fk
  else if p ≤ 1 then programRuns 5 27 s.fk
  else if p ≤ 3 then !s.pwr.bkpOnVdd && programRuns 6 25 s.fk
  else if p ≤ 7 then programRuns 6 (26 + (p - 4) / 2) s.fk
  else true

/-- R475: the detector evaluates under the present conditions. R475 names positions 4 to 12 of Table 09-11 as not evaluating on a
channel that does not run, while that table and Table 05-3 make position 7 an action, which always counts as evaluable: here R475
is followed (DESIGN CHOICE, log entry 58). -/
def evaluates (id : Nat) (s : State) : Bool :=
  let g := id / 16
  let p := id % 16
  let starting := fun k : Chan => !atRest k s
  if 0x16 ≤ g ∧ g ≤ 0x19 ∧ 4 ≤ p ∧ p ≤ 12 then isRunning (eventChan 0x160 0x10 id) s
  else if 0xC ≤ g ∧ g ≤ 0x13 ∧ g % 2 = 1 then starting (eventChan 0xC0 0x20 id)
  else if !isDetector id then true
  else if 4 ≤ g ∧ g ≤ 0xB then
    let k := eventChan 0x40 0x20 id
    starting k && !(g % 2 = 1 && (p = 12 || p = 13) && !s.cal.txen) &&
      !(((g % 2 = 0 ∧ p = 4) ∨ (g % 2 = 1 ∧ p = 0)) && decide (s.fe.mode = 2))
  else if id = 0x3E1 then s.sys.xrun
  else if 0x2E ≤ g ∧ g ≤ 0x33 then frisketEvaluates g p s
  else if 0x151 ≤ id ∧ id ≤ 0x154 then s.tone.busy && (decide (0x153 ≤ id) || s.tone.thenBit)
  else if 0x1A ≤ g ∧ g ≤ 0x2A then linkEvaluates id s
  else true

/-- Table 05-4: DATA of code 35h. -/
def injectionData (answered aborted : Bool) (e : Events) : W32 :=
  BitVec.ofNat 32
    (e.evid.toNat * 65536 + 32768 * flag e.injLive + 16384 * flag answered + 4096 * e.injMode.toNat
      + 2048 * flag aborted)

/-- R152: the event belongs to groups 2Eh to 35h. -/
def isFrisketEvent (id : Nat) : Bool := decide (0x2E0 ≤ id ∧ id < 0x360)

/-- R475: an injection ends without an evaluation: ABRT, event 02Bh, and for groups 2Eh to 35h code 35h with DATA[14] = 0 and
DATA[11] = 1. -/
def injectionAborts (s : State) : State :=
  when (isFrisketEvent s.ev.evid.toNat) (logNow 0x35 (injectionData false true s.ev))
    (raise 0x2B { s with ev := { s.ev with act := false, abrt := true } })

/-- R475: a running injection whose detector has ceased to evaluate ends without an evaluation. -/
def injectionCheck (s : State) : State :=
  if s.ev.act && !s.ev.evaluated && !evaluates s.ev.evid.toNat s then injectionAborts s else s

end Sys2Proof.Machine
end

