-- ==== Sys2Proof/Machine/Operands.lean ====
section
/-! DEFINITION. Machine/Operands.lean: the operands of an access: the 64 registers as they read, the window arrays and their
elements, and what a write to RWM fields sets. -/

namespace Sys2Proof.Machine

/-! ## Registers as they read -/

/-- Table 02-4; CLOSE reads 1 until the closing ends. -/
def sealstWord (s : State) : Word :=
  packWord
    [(flag (decide (s.sl.opening ≠ .idle) || decide (s.pwr.phase = .startup)), 15), (flag s.sl.denied, 14),
     (flag s.sl.granted, 13), (flag (decide (4031 < s.imp.next)), 12), (flag s.sl.clref, 11), (flag s.sl.digerr, 10),
     (flag s.key.void, 9), (flag (decide (s.sl.incr = .done)), 8), (flag (isClosing s), 7), (flag (isClosing s), 5),
     (s.sl.token.length, 0)]

/-- Table 04-8: MODE.STATE. -/
def modeState (s : State) : Nat :=
  match s.pwr.phase with
  | .run => 1
  | .makeready => 2
  | _ => 0

/-- Table 04-11. -/
def clkstWord (s : State) : Word :=
  packWord
    [(flag s.sys.xrun, 15), (flag s.sys.plllk, 14), (flag s.sys.lfxrun, 13), (flag s.sys.bkprc, 12),
     (flag s.sys.lnklk, 11), (flag s.sys.xlost, 10), (flag s.sys.plllost, 9), (flag s.sys.lfxlost, 8),
     (s.sys.modtrim.toNat, 0)]

/-- Table 04-12. -/
def pwrstWord (s : State) : Word :=
  packWord
    [(s.pwr.cause.toNat, 13), (flag (decide (s.pwr.phase = .startup)), 12), (flag (!liveMode s), 11),
     (flag (!liveChannels s), 10), (flag (legalFault s), 9), (flag (!s.sys.hbFresh), 8), (flag s.sys.hbFresh, 7),
     (flag s.pwr.pfiOk, 6)]

/-- Table 05-7. -/
def injWord (s : State) : Word :=
  packWord
    [(flag s.ev.armed, 15), (flag s.ev.act, 14), (flag s.ev.miss, 13), (flag s.ev.ref, 12), (flag s.ev.abrt, 11),
     (s.ev.evid.toNat, 0)]

/-- Table 06-10. -/
def chctlWord (k : Chan) (s : State) : Word :=
  let c := s.fe.ch.get k
  packWord
    [(flag c.startBit, 15), (flag c.stopBit, 14), (flag c.cls, 13), (flag c.short, 12),
     (c.range.toNat, 10)]

/-- Table 06-12. -/
def chanStateCode : ChanState → Nat
  | .stopped => 0
  | .starting => 1
  | .running => 2
  | .halted => 3

/-- Table 06-12. -/
def chstWord (s : State) : Word :=
  packWord (channels.map fun k =>
    (4 * chanStateCode (s.fe.ch.get k).state
      + 2 * flag (bitOf s.fe.heldStarts k.val || (s.fe.armed && bitOf s.fe.mask k.val)) + flag (feFault k s), 4 * k.val))

/-- Table 06-9. -/
def excctlWord (s : State) : Word :=
  packWord
    [(s.fe.mode.toNat, 14), (s.fe.fdiv.toNat, 11), (s.fe.blank.toNat, 8), (s.fe.amp.toNat, 6), (flag s.fe.dcpol, 5)]

/-- R164: the blanking time B in mt. -/
def blankMt (s : State) : Nat := 8 * 2 ^ s.fe.blank.toNat

/-- R163: a half-period in mt. -/
def halfPeriod (s : State) : Nat := 192 * 2 ^ s.fe.fdiv.toNat

/-- R162: DC excitation. -/
def isDc (s : State) : Bool := decide (s.fe.mode = 2)

/-- R167: the generator is in a blanking gap. -/
def inGap (s : State) : Bool := s.fe.gen && !isDc s && decide (s.fe.phase < blankMt s)

/-- Table 06-13. -/
def excstWord (s : State) : Word :=
  packWord
    ([(flag s.fe.gen, 15), (flag (s.fe.gen && s.fe.pol), 14), (flag (inGap s), 13), (flag s.pwr.avddOk, 12),
      (flag s.fe.ref, 3)] ++
     channels.map (fun k => (flag (s.fe.ch.get k).ilim, 8 + k.val)) ++
     channels.map (fun k => (flag (s.fe.ch.get k).drv, 4 + k.val)))

/-- Table 07-8; LOAD reads 1 until the load ends. -/
def fmctlWord (s : State) : Word :=
  packWord
    [(flag (s.fm.loadBit && formeBusy s), 15), (flag s.fm.src, 14), (s.fm.sel.toNat, 12),
     (s.fm.preset.toNat, 9), (s.fm.raw.toNat, 4)]

/-- Table 07-9. -/
def fmstWord (s : State) : Word :=
  packWord
    ([(flag (formeBusy s), 15), (flag s.fm.ref, 14), (s.fm.errc.toNat, 10), (s.fm.errw.toNat, 4)] ++
     channels.map (fun k => (flag (s.fm.ch.get k).valid, k.val)))

/-- Table 07-10. -/
def smpctlWord (s : State) : Word :=
  packWord [(flag s.fm.sink, 14), (s.fm.wm.toNat, 8), (s.fm.chen.toNat, 4), (s.fm.tapen.toNat, 0)]

/-- Table 07-11. -/
def smplvlWord (s : State) : Word :=
  packWord
    ([(flag s.fm.ovf, 11), (s.fm.fifo.length, 0)] ++ channels.map (fun k => (flag (s.fm.ch.get k).stable, 12 + k.val)))

/-- Table 08-8; SW clears when the switch is accepted or refused, CPY when the copy ends. -/
def casectlWord (s : State) : Word :=
  packWord
    [(flag s.cs.tgt, 14), (s.cs.sel.toNat, 12), (s.cs.xflen.toNat, 8), (flag (s.cs.copyBit && s.cs.copy.isSome), 7)]

/-- Table 08-9. -/
def casestWord (s : State) : Word :=
  packWord (channels.map fun k =>
    let c := s.cs.ch.get k
    (8 * flag c.act + 4 * flag (match c.fade with | some f => f.begun | none => false) + 2 * flag (caseBusy k s)
      + flag c.rstf, 4 * k.val))

/-- Table 08-10. -/
def tonectlWord (s : State) : Word :=
  packWord [(flag s.tone.dph, 15), (s.tone.sel.toNat, 11), (flag s.tone.cont, 6), (flag s.tone.thenBit, 5)]

/-- Table 08-12. -/
def tonestWord (s : State) : Word :=
  packWord
    [(flag s.tone.busy, 15), (flag s.tone.rdy, 14), (flag s.tone.ovrn, 13), (flag s.tone.above, 12),
     (flag s.tone.skipd, 11), (s.tone.skipcnt.toNat, 0)]

/-- Table 09-6; STORE reads 1 while a calibration store runs. -/
def calctlWord (s : State) : Word :=
  packWord
    [(flag (channels.any fun k => calBusy k s), 15), (s.cal.sel.toNat, 12), (flag s.cal.txen, 11), (flag s.cal.tview, 10),
     (s.cal.errc.toNat, 7)]

/-- Table 09-7. -/
def calstWord (s : State) : Word :=
  packWord
    (channels.map (fun k => (flag (s.cal.ch.get k).stored.isSome, 12 + k.val)) ++
     channels.map (fun k => (flag (calBusy k s), 8 + k.val)) ++
     channels.map (fun k => (flag (kernOk k s), 4 + k.val)) ++
     [(flag s.cal.die.isSome, 3), (flag (s.cal.txen && s.cal.ext.isSome), 2)])

/-- Table 09-8. -/
def kernctlWord (s : State) : Word :=
  packWord
    [(s.kern.en.toNat, 12), (flag s.kern.dith, 11), (flag s.kern.qgate, 10), (flag s.kern.frz, 9), (s.kern.qsel.toNat, 6),
     (s.kern.qlim.toNat, 0)]

/-- A two-bit channel field. -/
def chanOf (v : BitVec 2) : Chan := ⟨v.toNat, v.isLt⟩

/-- Table 09-10. -/
def tempdieWord (s : State) : Word :=
  (if s.cal.tview then (if s.cal.txen then s.cal.ext else none) else s.cal.die).getD 0x8000

/-- Table 10-10. -/
def glctlWord (s : State) : Word :=
  packWord [(flag s.gl.en, 15), (flag s.gl.rng, 14), (flag s.gl.trim, 13), (flag s.gl.restartBit, 12),
    (if isNode s then s.gl.addr.toNat else 0, 0)]

/-- Table 10-11. -/
def linkCode : LinkState → Nat
  | .off => 0
  | .run => 1
  | .search => 2
  | .lock => 3
  | .join => 4
  | .member => 5

/-- Table 10-11. -/
def glstWord (s : State) : Word :=
  packWord
    [(flag (isNode s), 15), (linkCode s.gl.state, 12), (flag s.gl.orph, 11), (flag s.gl.algn, 10), (flag s.gl.zkey, 9),
     (flag s.gl.minor, 8), ((match s.gl.slot with | some n => n.val | none => 0x1F), 0)]

/-- R289: the mask of member NODEs. -/
def memberMask (s : State) : Nat :=
  (List.range 16).foldl (fun m a => m + if ((s.gl.node[a]?).map (·.member)).getD false then 2 ^ a else 0) 0

/-- Table 10-12. -/
def glnodesWord (s : State) : Word :=
  if isNode s then
    (if s.gl.state = .member then setBit (1 : Word) s.gl.useAddr.toNat true else 0)
  else BitVec.ofNat 16 (memberMask s) ||| (if s.gl.state = .run then 1 else 0)

/-- Table 10-13. -/
def glraWord (s : State) : Word :=
  if isNode s then 0
  else
    packWord
      [(flag (s.gl.goBit && s.gl.job.isSome), 15), (flag s.gl.bcast, 14), (flag s.gl.localX, 13), (flag s.gl.job.isSome, 12),
       (s.gl.tgt.toNat, 8), (s.gl.res.toNat, 6),
       (s.gl.nacc.toNat, 0)]

/-- Table 11-8, R12: PAPPLY reads 1 while an accepted program waits for its increment or its pass start. -/
def fkctlWord (s : State) : Word :=
  packWord [(s.fk.lmode.toNat, 8), (s.fk.caseen.toNat, 6), (flag s.fk.livetest, 5), (flag s.fk.papply, 4)]

/-- The fields of FKCTL that a word would change: LMODE, CASEEN, LIVETEST. -/
def fkctlChange (v : Word) (s : State) : Bool := decide ((v ^^^ fkctlWord s) &&& 0xFFE0 ≠ 0)

/-- R329: CALSW counts as asserted: its last evaluation, at most 2 ms (two passes) earlier, found both detectors in
condition. -/
def calswAsserted (s : State) : Bool := s.fk.calBoth && decide (s.fk.calAge ≤ 1)

/-- Table 11-9. -/
def fkstWord (s : State) : Word :=
  packWord
    [(s.fk.ltrip.toNat, 12), (s.fk.ctrip.toNat, 10), (flag s.fk.caltrip, 9), (flag (decide (s.fk.etrip ≠ 0)), 8),
     (flag s.fk.dflt, 7),
     (flag s.fk.lktrip, 6), (flag (calswAsserted s), 5), (flag s.fk.bklow, 4), (s.fk.perr.toNat, 0)]

/-- Table 12-10, status form. -/
def nvctlWord (s : State) : Word :=
  packWord [(flag s.nv.dph, 15), (flag s.nv.readWords.isSome, 14), (s.nv.cnt, 11), (s.nv.pring.toNat, 0)]

/-- A host operation or a page of a legal store waits. -/
def hostWaits (s : State) : Bool :=
  s.nv.host.isSome || s.nv.legal.any fun l => !l.pages.isEmpty

/-- R354: a shadow store runs. -/
def storeRuns (s : State) : Bool :=
  match s.nv.running with
  | some (.store ..) => true
  | _ => false

/-- R361, R379: the pending host operation is occupied: it waits to start, or a device legal store runs (log entry 29). -/
def hostOccupied (s : State) : Bool := s.nv.host.isSome || !s.nv.legal.isEmpty

/-- Table 12-3, order 6: a command shadow store is in progress. -/
def commandStore (s : State) : Bool :=
  match s.nv.running with
  | some (.store true ..) => true
  | _ => false

/-- R362: no array operation runs and no host operation is pending. -/
def nvIdle (s : State) : Bool := s.nv.running.isNone && !hostWaits s

/-- Table 12-11. -/
def nvstWord (s : State) : Word :=
  packWord
    [(flag (!nvIdle s), 15), (flag (hostWaits s), 14), (flag s.nv.bufPage.isSome, 13), (flag (storeRuns s), 12),
     (flag (match s.nv.running with | some (.refresh _) => true | _ => false), 11),
     (((s.nv.bufPage).map (·.toNat)).getD 0, 0)]

/-- Table 12-12. -/
def nvprotWord (s : State) : Word := packWord [(flag s.nv.bpl, 15), (s.nv.bp.toNat, 0)]

/-- Table 12-13. -/
def txnctlWord (s : State) : Word :=
  packWord
    [(flag s.sh.closeBit, 14), (flag s.sh.sign, 12), (flag s.sh.staging.isSome, 11), (flag s.sh.busy, 10), (flag s.sh.disc, 9),
     (flag s.sh.ref, 8),
     (s.sh.base.toNat, 0)]

/-- Table 12-14. -/
def impctlWord (s : State) : Word :=
  packWord [(flag s.imp.verify.isSome, 15), (flag s.imp.verr, 14), (s.imp.first.toNat, 0)]

/-- Table 12-15. -/
def impstWord (s : State) : Word :=
  packWord
    [(flag (decide (3968 < s.imp.next)), 15), (flag (decide (4031 < s.imp.next)), 14),
     (flag (decide (4095 < s.imp.next)), 13), (s.imp.next, 0)]

/-- Table 12-18 with a given fraction. -/
def rtcfWord (s : State) (frac : Byte) : Word := packWord [(flag s.bkp.valid, 15), (frac.toNat, 0)]

/-- R50: LEGALID. -/
def legalidWord (s : State) : Word := (s.sl.digest >>> 240).setWidth 16

/-- Table 11-11. -/
def keystWord (s : State) : Word :=
  packWord
    [(flag s.key.dph, 15), (flag s.key.rph, 14), (flag s.key.op.isSome, 13), (s.key.stage.length, 8),
     (s.key.slot.toNat, 5), (flag s.key.void, 4), (s.key.pres.toNat, 0)]

/-- Table 11-12. -/
def compstWord (s : State) : Word :=
  packWord
    [(flag s.port.isOpen, 15), (flag s.port.pend, 14), (flag s.port.test, 13), (flag s.port.ref, 12), (s.port.ir.toNat, 0)]

/-! ## Window arrays -/

/-- Table 04-5: words of an instance. -/
def arrayWords (arr : BitVec 4) : Nat :=
  match arr.toNat with
  | 0 => 64
  | 1 => 64
  | 2 => 192
  | 3 => 128
  | 4 => 1024
  | 5 => 1024
  | 6 => 66
  | 7 => 32
  | 8 => 16
  | 9 => 64
  | 10 => 65536
  | 11 => 2048
  | 12 => 32768
  | 13 => 4
  | 14 => 64
  | _ => 20

/-- Table 04-5: the array has one instance for each channel. -/
def perChannel (arr : BitVec 4) : Bool := [3, 4, 5, 6, 7, 14].contains arr.toNat

/-- R117: the access is within its instance. -/
def inRange (arr sub : BitVec 4) (a : Nat) : Bool :=
  decide (a < arrayWords arr) && (!perChannel arr || decide (sub.toNat < 4))

/-- Table 04-5: first word and width of the element at word `a`. -/
def elementAt (arr : BitVec 4) (a : Nat) : Nat × Nat :=
  match arr.toNat with
  | 2 => (a / 3 * 3, 3)
  | 3 | 4 | 5 | 6 | 7 | 9 | 14 => (a / 2 * 2, 2)
  | 12 => (a / 8 * 8, 8)
  | 13 => (0, 4)
  | 15 => if a < 16 then (a, 1) else (a / 2 * 2, 2)
  | _ => (a, 1)

/-- The window address. -/
def winAddr (s : State) : Nat := s.bus.addr.toNat

/-- R117: the word at the window address lies in its instance. -/
def winInRange (s : State) : Bool := inRange s.bus.array s.bus.sub (winAddr s)

/-- R119: the snapshot held is that of the element at the window address. -/
def snapHere (s : State) : Option (List Word) :=
  match s.bus.snap with
  | none => none
  | some p =>
    if p.array = s.bus.array ∧ p.sub = s.bus.sub ∧ winInRange s ∧ p.base = (elementAt s.bus.array (winAddr s)).1 then
      some p.words
    else none

/-- Table 04-18. -/
def winstWord (s : State) : Word :=
  packWord
    [(flag s.bus.range, 15), (flag s.bus.roref, 14), (flag s.bus.part, 13), (flag s.bus.badchk, 12),
     (flag (snapHere s).isSome, 11), ((match s.bus.stage with | some g => g.words.length | none => 0), 4),
     (if winInRange s then (elementAt s.bus.array (winAddr s)).2 else 0, 0)]

/-- Table 04-14. -/
def winselWord (s : State) : Word := packWord [(flag s.bus.hold, 8), (s.bus.sub.toNat, 4), (s.bus.array.toNat, 0)]

/-! ## What a write to RWM fields sets

Each operation takes the word written and sets the RWM fields of one register, with the effects that the change has. -/

/-- Table 04-9: HBTO, WDRST. -/
def setSysctl (v : Word) (s : State) : State :=
  { s with sys := { s.sys with hbto := BitVec.ofNat 3 (fieldOf v 4 3), wdrst := bitOf v 3 } }

/-- Table 06-9. -/
def setExcctl (v : Word) (s : State) : State :=
  { s with fe := { s.fe with
      mode := BitVec.ofNat 2 (fieldOf v 14 2)
      fdiv := BitVec.ofNat 3 (fieldOf v 11 3)
      blank := BitVec.ofNat 3 (fieldOf v 8 3)
      amp := BitVec.ofNat 2 (fieldOf v 6 2)
      dcpol := bitOf v 5 } }

/-- Table 06-10: SHORT and RANGE of a channel. -/
def setShortRange (k : Chan) (v : Word) (s : State) : State :=
  modFe k (fun c => { c with short := bitOf v 12, range := BitVec.ofNat 2 (fieldOf v 10 2) }) s

/-- Table 06-10, R200: the RWM fields of CHCTL: CLASS, and on the legal class SHORT and RANGE. A change of CLASS clears
VALID; while a forme of the channel is still to become active, it does so when that load completes (R216). -/
def setChctl (k : Chan) (v : Word) (s : State) : State :=
  let was := isLegal k s
  let s0 := if was then setShortRange k v s else s
  let s1 := modFe k (fun c => { c with cls := bitOf v 13 }) s0
  if was ≠ bitOf v 13 ∧ formeComing k s = false then raise (fmA k 7) (modFm k (fun c => { c with valid := false }) s1) else s1

/-- Table 07-8: the RAW bits of the channels that `which` selects. -/
def setRawOf (which : Chan → Bool) (v : Word) (s : State) : State :=
  let put := fun (w : BitVec 4) (k : Chan) =>
    setBit w k.val (if which k then bitOf v (4 + k.val) else bitOf s.fm.raw k.val)
  { s with fm := { s.fm with raw := channels.foldl put 0 } }

/-- Table 07-8: the RWM bits of RAW, those of the legal-class channels. -/
def setRaw (v : Word) (s : State) : State := setRawOf (fun k => isLegal k s) v s

/-- Table 09-6, R261, R263: TXEN; clearing it clears EXTOK, and may leave a channel without a reading. -/
def setTxen (v : Word) (s : State) : State :=
  forAll channels noReadingCheck
    { s with cal := { s.cal with txen := bitOf v 11, ext := if bitOf v 11 then s.cal.ext else none } }

/-- A requested or running solve of a channel is dropped; the next one begins afresh (R405). -/
def dropSolve (k : Chan) (s : State) : State :=
  let rest := s.kern.solves.filter fun j => decide (j ≠ k)
  { s with kern := { s.kern with
      solves := rest
      solveLeft := if s.kern.solves.head? = some k then (if rest.isEmpty then 0 else 512) else s.kern.solveLeft } }

/-- R269, R270: what a change of one EN bit does. -/
def kernEnable (k : Chan) (b : Bool) (s : State) : State :=
  if bitOf s.kern.en k.val = b then s
  else
    let s1 := { s with kern := { s.kern with en := setBit s.kern.en k.val b } }
    if b then modKern k (fun c => { c with q := 0xFFFF, samples := 0, gapSamples := 0 }) (dropSolve k s1)
    else modKern k (fun c => { c with zeroNext := true, pend := none }) s1

/-- R271: KOK is evaluated again; a change raises its event. -/
def kokCheck (k : Chan) (s : State) : State :=
  let ok := kernOk k s
  if ok = (s.kern.ch.get k).kok then s
  else raise (calE k (if ok then 8 else 9)) (modKern k (fun c => { c with kok := ok }) s)

/-- Table 09-8: the EN bits of the channels that `which` selects. -/
def setKernEn (which : Chan → Bool) (v : Word) (s : State) : State :=
  forAll channels (fun k => when (which k) (kernEnable k (bitOf v (12 + k.val)))) s

/-- Table 09-8: the RWM fields: EN of the legal-class channels, DITH, QGATE, FRZ, QLIM. -/
def setKernctl (v : Word) (s : State) : State :=
  let s1 := setKernEn (fun k => isLegal k s) v s
  let s2 := { s1 with kern := { s1.kern with
    dith := bitOf v 11, qgate := bitOf v 10, frz := bitOf v 9, qlim := BitVec.ofNat 6 (fieldOf v 0 6) } }
  forAll channels kokCheck s2

/-- Table 10-7: OFF to SEARCH: ADDR taken into use, A = 0, event 2A0h. A NODE in SEARCH executes no downlink (R427). -/
def enterSearch (s : State) : State :=
  raise 0x2A0 { s with gl := { s.gl with
    state := .search, useAddr := s.gl.addr, adv := 0, majorSeen := false, missed := 0, good := 0, keyed := false
    slot := none, held := none } }

/-- Table 10-7, Table 10-11: a NODE goes to OFF. -/
def linkOff (s : State) : State := { s with gl := { s.gl with state := .off, slot := none, held := none } }

/-- Table 10-10: EN, RNG, TRIM, and on a NODE ADDR. R302: a HUB whose EN is set starts the link at the next origin. R298: a
NODE that is OFF goes to SEARCH; one in SEARCH, which has no origins, goes to OFF at once (log entry 27). -/
def setGlctl (v : Word) (s : State) : State :=
  let s1 := { s with gl := { s.gl with
    en := bitOf v 15, rng := bitOf v 14, trim := bitOf v 13
    addr := if isNode s ∧ fieldOf v 0 4 ≠ 0 then BitVec.ofNat 4 (fieldOf v 0 4) else s.gl.addr } }
  if isNode s ∧ bitOf v 15 ∧ s.gl.state = .off then enterSearch s1
  else if s.gl.state = .search ∧ bitOf v 15 = false then linkOff s1
  else s1

/-- R302, R308: RESTART acts while EN = 1: at the next origin, or at once on a NODE that has none. -/
def restartLink (s : State) : State :=
  let done : State → State := fun t => { t with gl := { t.gl with restartBit := false } }
  if !s.gl.en then done s
  else if isNode s ∧ (s.gl.state = .off ∨ s.gl.state = .search) then done (enterSearch s)
  else { s with gl := { s.gl with restart := true } }

/-- A write of GLCTL takes effect: its RWM fields, then RESTART. -/
def applyGlctl (v : Word) (s : State) : State := when (bitOf v 12) restartLink (setGlctl v s)

/-- Table 11-8: LMODE, CASEEN, LIVETEST. -/
def setFkctl (v : Word) (s : State) : State :=
  { s with fk := { s.fk with
      lmode := BitVec.ofNat 8 (fieldOf v 8 8), caseen := BitVec.ofNat 2 (fieldOf v 6 2), livetest := bitOf v 5 } }

/-- Table 11-10: the page that PG names. -/
def setFkresp (v : Word) (s : State) : State :=
  if bitOf v 15 then { s with fk := { s.fk with resp1 := BitVec.ofNat 10 (fieldOf v 0 10) } }
  else { s with fk := { s.fk with resp0 := BitVec.ofNat 12 (fieldOf v 0 12) } }

/-- Table 12-12: BP. -/
def setBp (v : Word) (s : State) : State := { s with nv := { s.nv with bp := BitVec.ofNat 2 (fieldOf v 0 2) } }

/-- Table 12-12: the RWM fields: BPL, and BP while BPL = 1. -/
def setNvprot (v : Word) (s : State) : State :=
  let s1 := if s.nv.bpl then setBp v s else s
  { s1 with nv := { s1.nv with bpl := bitOf v 15 } }

/-- R176: a deferred change of CHCTL or EXCCTL still finds the channels at rest, or is refused (log entry 23). -/
def deferredChctl (k : Chan) (v : Word) (s : State) : State :=
  if atRest k s then setChctl k v s else raise (feB k 6) s

def deferredExcctl (v : Word) (s : State) : State :=
  if channels.all (fun k => atRest k s) then setExcctl v s
  else raise (feA 0 9) { s with fe := { s.fe with ref := true } }

/-- R44: a deferred change is made once the increment has committed. -/
def applyDeferred (d : Deferred) (s : State) : State :=
  match d with
  | .program p => { s with fk := { s.fk with next := some p } }
  | .reg a v =>
    match a.toNat with
    | 0x04 => setSysctl v s
    | 0x14 => deferredChctl 0 v s
    | 0x15 => deferredChctl 1 v s
    | 0x16 => deferredChctl 2 v s
    | 0x17 => deferredChctl 3 v s
    | 0x1D => deferredExcctl v s
    | 0x1F => setRaw v s
    | 0x26 => setTxen v s
    | 0x28 => setKernctl v s
    | 0x2B => applyGlctl v s
    | 0x2F => setFkctl v s
    | 0x31 => setFkresp v s
    | 0x34 => setNvprot v s
    | _ => s

end Sys2Proof.Machine
end

