-- ==== Sys2Proof/Machine/Analog.lean ====
section
/-! DEFINITION. Machine/Analog.lean: what the front end makes of the levels at its pins: the excitation that AMP selects (R165),
the input ranges (R169), SHORT (R170), and the codes of Frisket's detectors B (R319). -/

namespace Sys2Proof.Machine

/-! ## Excitation (R162, R165) -/

/-- Table 06-5: the amplitude, in microvolts, to which the sense loop regulates. -/
def targetUv (amp : BitVec 2) : Option Nat :=
  match amp.toNat with
  | 1 => some 4000000
  | 2 => some 2500000
  | _ => none

/-- R165: the sense loop holds regulation while the drops stay within AVDD − target − 0.2 V. -/
def regulates (target avdd drops : Nat) : Bool := decide (drops + target + 200000 ≤ avdd)

/-- R165: SENP − SENN in microvolts: a regulating loop keeps it within ±0.5 % of its target; else the drivers stand at AVDD and
AGND, and the bridge has AVDD less the drops. -/
def sensedUv (amp : BitVec 2) (avdd : Nat) (b : BridgeReading) : Nat :=
  match b.openSense with
  | some v => v
  | none =>
    match targetUv amp with
    | some t =>
      if regulates t avdd b.drops then ((t : Int) + clampInt (-(t / 200 : Nat)) (t / 200 : Nat) b.offTarget).toNat
      else avdd - b.drops
    | none => avdd - b.drops

/-- Table 06-5: the amplitude lies outside the monitor's window (A, 1). -/
def ampOutside (amp : BitVec 2) (avdd v : Nat) : Bool :=
  match amp.toNat with
  | 1 => decide (v < 3600000 ∨ 4400000 < v)
  | 2 => decide (v < 2250000 ∨ 2750000 < v)
  | _ => decide (v < 3750000 ∨ avdd < v)

/-- Table 06-8, A, 2: EXCP − SENP or SENN − EXCN lies beyond ±0.5 V, as with a sense lead that is open. -/
def senseOpen (b : BridgeReading) : Bool :=
  b.openSense.isSome || decide (500000 < b.leadP.natAbs ∨ 500000 < b.leadN.natAbs)

/-- Table 06-8, A, 3: the lead drop exceeds 10 % of the sensed amplitude. -/
def leadExcess (v : Nat) (b : BridgeReading) : Bool := decide ((v : Int) < 10 * (b.leadP + b.leadN))

/-- Table 06-8, A, 5: the sensed amplitude is below 0.5 V. -/
def amplitudeLow (v : Nat) : Bool := decide (v < 500000)

/-- Table 06-8, A, 6: AVDD below 4.70 V or above 5.30 V. -/
def avddOutside (avdd : Nat) : Bool := decide (avdd < 4700000 ∨ 5300000 < avdd)

/-- Table 06-3: the level across the bridges in eighths of the amplitude, none where the generator is idle. A trapezoid ramps
linearly over the 8 mt from each half-period boundary. From which level it ramps as an idle generator starts is open: here it is
the opposite polarity, as at every boundary (DESIGN CHOICE, log entry 58). -/
def excitationLevel (s : State) : Option Int :=
  if !s.fe.gen then none
  else
    let p : Int := if s.fe.pol then 1 else -1
    if s.fe.mode = 1 then some (p * (2 * (min 8 s.fe.phase : Nat) - 8)) else some (8 * p)

/-! ## Input ranges (R169, R170) -/

/-- Table 06-7: the PGA gain of a range. -/
def pgaGain (range : BitVec 2) : Nat := 400 / 2 ^ range.toNat

/-- Table 06-7: FS in nanovolts at a sensed amplitude in microvolts: RANGE in mV/V. -/
def fullScaleNv (range : BitVec 2) (v : Nat) : Nat := 2 ^ range.toNat * v

/-- R170: the input of a running channel; with SHORT its inputs leave their pins and are joined to VCM. -/
def inputNv (c : FeChan) (input : Int) : Int := if c.shortNow then 0 else input

/-- R169: the modulator accepts ±0.5 × (SENP − SENN) behind the PGA: 1.25 FS. -/
def beyondLinear (c : FeChan) (v : Nat) (input : Int) : Bool :=
  decide (1000 * v < 2 * pgaGain c.rangeNow * (inputNv c input).natAbs)

/-- Table 06-8, B, 2: the input lies beyond ±1.20 FS. -/
def beyond120 (c : FeChan) (v : Nat) (input : Int) : Bool :=
  decide (120 * fullScaleNv c.rangeNow v < 100 * (inputNv c input).natAbs)

/-- R169, R192: the modulator's sample on the stream scale: the input against FS, with what the converter is off. -/
def modulatorSample (c : FeChan) (v : Nat) (input noise : Int) : Int :=
  let fs := fullScaleNv c.rangeNow v
  let ideal := if fs = 0 then 0 else roundAway (inputNv c input * 2 ^ 38) fs
  clampInt (-(2 ^ 39)) (2 ^ 39 - 1) (ideal + noise)

/-! ## Frisket (R318, R319, R321) -/

/-- R319: detector B of a loop: floor(R_LOOP / 1 kΩ), saturating at 255; an open loop reads 255. -/
def loopCode (r : LoopReading) : Byte :=
  match r.ohms with
  | some n => BitVec.ofNat 8 (min 255 (n / 1000))
  | none => 255

/-- R319: detector B of a switch input: floor(I / 0.1 µA), saturating at 255. -/
def switchCode (r : SwitchReading) : Byte := BitVec.ofNat 8 (min 255 (r.current / 100))

/-- R318, R321: LOOPI differs from the level driven. The bias holds a loop that is open, or that is not driven, between the
thresholds; an intact loop of up to 254 kΩ follows its drive (log entry 52: beyond that the spec gives no level). -/
def loopDiffers (r : LoopReading) (driven : Option Bool) : Bool :=
  match r.hold with
  | .between => true
  | .high => decide (driven ≠ some true)
  | .low => decide (driven ≠ some false)
  | .free => driven.isNone || !(r.ohms.any fun n => decide (n ≤ 254000))

end Sys2Proof.Machine
end

