-- ==== Sys2Proof/Machine/Crypto.lean ====
section
/-! DEFINITION. Machine/Crypto.lean: the hash and cipher unit (R406): SHA-256 (FIPS 180-4), HMAC-SHA-256 (RFC 2104),
AES-128 (FIPS 197) and its CMAC (the 16-byte tag; its truncation is the caller's). -/

namespace Sys2Proof.Machine

/-! ## SHA-256 -/

/-- FIPS 180-4 takes its constants from the roots of the first primes: those below 312, which have no proper divisor up to 17.
-/
def shaPrimes : List Nat :=
  (List.range 312).filter fun n => decide (2 ≤ n) && [2, 3, 5, 7, 11, 13, 17].all fun d => decide (n = d ∨ n % d ≠ 0)

/-- The largest number of `n` more bits below `r` whose `k`-th power is at most `x`. -/
def rootBits (k x : Nat) : Nat → Nat → Nat
  | 0, r => r
  | n + 1, r => rootBits k x n (if (r + 2 ^ n) ^ k ≤ x then r + 2 ^ n else r)

/-- The first 32 fractional bits of the `k`-th root of `p`. -/
def rootFraction (k p : Nat) : W32 := BitVec.ofNat 32 (rootBits k (p * 2 ^ (32 * k)) 40 0)

/-- The initial hash value and the round constants. -/
def shaStart : List W32 := (shaPrimes.take 8).map (rootFraction 2)
def shaConstants : List W32 := shaPrimes.map (rootFraction 3)

/-- The sum, modulo 2, of a word rotated by each of some distances. -/
def turned (x : W32) (ns : List Nat) : W32 := ns.foldl (fun y n => y ^^^ x.rotateRight n) 0

/-- The bits of `y` where those of `x` are set, else those of `z`. -/
def chosen (x y z : W32) : W32 := z ^^^ (x &&& (y ^^^ z))

/-- The bits that at least two of three words have. -/
def majority (x y z : W32) : W32 := (x &&& (y ||| z)) ||| (y &&& z)

/-- The word that the schedule appends to the last sixteen. -/
def shaNextWord (win : List W32) : W32 :=
  let w := fun i => win.getD i 0
  w 0 + (turned (w 1) [7, 18] ^^^ (w 1 >>> 3)) + w 9 + (turned (w 14) [17, 19] ^^^ (w 14 >>> 10))

/-- One round: the eight working variables and the window of sixteen schedule words, whose first one the round takes. -/
def shaRound (st : List W32 × List W32) (k : W32) : List W32 × List W32 :=
  match st with
  | ([a, b, c, d, e, f, g, h], w :: rest) =>
    let t := h + turned e [6, 11, 25] + chosen e f g + (k + w)
    ([t + turned a [2, 13, 22] + majority a b c, a, b, c, d + t, e, f, g], rest ++ [shaNextWord (w :: rest)])
  | other => other

/-- One block of 64 bytes taken into the hash value. -/
def shaBlock (v : List W32) (block : List Byte) : List W32 :=
  let words := (pieces 4 16 block).map fun q => BitVec.ofNat 32 (ofBe q)
  List.zipWith (· + ·) v (shaConstants.foldl shaRound (v, words)).1

/-- The padded message. -/
def shaPad (msg : List Byte) : List Byte :=
  let zeros := (119 - msg.length % 64) % 64
  msg ++ 0x80 :: List.replicate zeros 0 ++ beBytes 8 (8 * msg.length)

/-- SHA-256, byte 0 in the most significant place. -/
def sha256 (msg : List Byte) : BitVec 256 :=
  let p := shaPad msg
  BitVec.ofNat 256 (((pieces 64 p.length p).foldl shaBlock shaStart).foldl (fun n x => n * 2 ^ 32 + x.toNat) 0)

/-- RFC 2104: a key of 32 bytes, filled to a block, under one of the two pads. -/
def hmacPad (key : BitVec 256) (pad : Byte) : List Byte :=
  (beBytes 32 key.toNat).map (pad ^^^ ·) ++ List.replicate 32 pad

/-- HMAC-SHA-256 with a key of 32 bytes. -/
def hmacSha256 (key : BitVec 256) (msg : List Byte) : BitVec 256 :=
  sha256 (hmacPad key 0x5C ++ beBytes 32 (sha256 (hmacPad key 0x36 ++ msg)).toNat)

/-! ## AES-128 -/

/-- Multiplication by x in GF(2^8) modulo 11Bh. -/
def xtime (b : Byte) : Byte := if b.getLsbD 7 then (b <<< 1) ^^^ 0x1B else b <<< 1

/-- Multiplication in GF(2^8): `n` bits of `y`, lowest first. -/
def gmul : Nat → Byte → Byte → Byte
  | 0, _, _ => 0
  | n + 1, x, y => (if y.getLsbD 0 then x else 0) ^^^ gmul n (xtime x) (y >>> 1)

/-- The inverse x^254 (0 for 0). -/
def ginv (x : Byte) : Byte :=
  let x2 := gmul 8 x x
  let x4 := gmul 8 x2 x2
  let x8 := gmul 8 x4 x4
  let x16 := gmul 8 x8 x8
  let x32 := gmul 8 x16 x16
  let x64 := gmul 8 x32 x32
  let x128 := gmul 8 x64 x64
  gmul 8 x128 (gmul 8 x64 (gmul 8 x32 (gmul 8 x16 (gmul 8 x8 (gmul 8 x4 x2)))))

def rotl8 (b : Byte) (n : Nat) : Byte := (b <<< n) ||| (b >>> (8 - n))

/-- The S-box: inverse, then the affine map. -/
def subByte (b : Byte) : Byte :=
  let i := ginv b
  i ^^^ rotl8 i 1 ^^^ rotl8 i 2 ^^^ rotl8 i 3 ^^^ rotl8 i 4 ^^^ 0x63

/-- The state, byte 4c + r at row r, column c, after ShiftRows. -/
def shiftRows (s : List Byte) : List Byte :=
  [0, 5, 10, 15, 4, 9, 14, 3, 8, 13, 2, 7, 12, 1, 6, 11].map fun i => s.getD i 0

def mixColumn : List Byte → List Byte
  | [a, b, c, d] =>
    let m2 := xtime
    let m3 := fun x => xtime x ^^^ x
    [m2 a ^^^ m3 b ^^^ c ^^^ d, a ^^^ m2 b ^^^ m3 c ^^^ d, a ^^^ b ^^^ m2 c ^^^ m3 d, m3 a ^^^ b ^^^ c ^^^ m2 d]
  | s => s

def xorBytes (x y : List Byte) : List Byte := List.zipWith (fun a b => a ^^^ b) x y

/-- The next round key. -/
def nextRoundKey (rcon : Byte) (k : List Byte) : List Byte :=
  let t := [subByte (k.getD 13 0) ^^^ rcon, subByte (k.getD 14 0), subByte (k.getD 15 0), subByte (k.getD 12 0)]
  let w0 := xorBytes (k.take 4) t
  let w1 := xorBytes ((k.drop 4).take 4) w0
  let w2 := xorBytes ((k.drop 8).take 4) w1
  let w3 := xorBytes (k.drop 12) w2
  w0 ++ w1 ++ w2 ++ w3

/-- Rounds 11 - n to 10; the last one has no MixColumns. -/
def aesRounds : Nat → Byte → List Byte → List Byte → List Byte
  | 0, _, _, s => s
  | n + 1, rcon, k, s =>
    let k' := nextRoundKey rcon k
    let t := shiftRows (s.map subByte)
    let u := if n = 0 then t else ((pieces 4 4 t).map mixColumn).flatten
    aesRounds n (xtime rcon) k' (xorBytes u k')

/-- AES-128 of one block of 16 bytes. -/
def aes128 (key block : List Byte) : List Byte := aesRounds 10 1 key (xorBytes block key)

/-- Doubling in GF(2^128) for the subkeys of CMAC. -/
def cmacDouble (v : BitVec 128) : BitVec 128 := if v.getLsbD 127 then (v <<< 1) ^^^ 0x87 else v <<< 1

/-- AES-128-CMAC, the 16-byte tag. -/
def cmac (key : BitVec 128) (msg : List Byte) : List Byte :=
  let k := beBytes 16 key.toNat
  let l := BitVec.ofNat 128 (ofBe (aes128 k (List.replicate 16 0)))
  let k1 := cmacDouble l
  let k2 := cmacDouble k1
  let n := (msg.length + 15) / 16
  let whole := decide (msg.length ≠ 0 ∧ msg.length % 16 = 0)
  let init := msg.take (16 * (n - 1))
  let tail := msg.drop (16 * (n - 1))
  let last :=
    if whole then xorBytes tail (beBytes 16 k1.toNat)
    else xorBytes (tail ++ 0x80 :: List.replicate (15 - tail.length) 0) (beBytes 16 k2.toNat)
  ((pieces 16 n init) ++ [last]).foldl (fun c b => aes128 k (xorBytes c b)) (List.replicate 16 0)

end Sys2Proof.Machine
end

