-- ==== Sys2Proof/Machine/Nv.lean ====
section
/-! DEFINITION. Machine/Nv.lean: the NV controller: SECDED reads, programming, slug slots, the Imprint writer, which operation
starts next (R362) and what the end of one brings about. -/

namespace Sys2Proof.Machine

/-! ## Reading -/

/-- The flaw of a word, if any. -/
def flawOf : List (Nat × Flaw) → Nat → Option Flaw
  | [], _ => none
  | (k, f) :: rest, w => if k = w then some f else flawOf rest w

/-- The stored data of NVARR word `w`. -/
def nvStored (s : State) (w : Nat) : Word := nvByte s (2 * w + 1) ++ nvByte s (2 * w)

/-- R358, R365: how NVARR word `w` reads, and 0 correct, 1 corrected, 2 uncorrectable. -/
def nvRead (s : State) (w : Nat) : Word × Nat :=
  let v := nvStored s w
  match flawOf s.nv.flaws w with
  | none => (v, 0)
  | some (.one bit) => (if bit.val < 16 then v ^^^ BitVec.twoPow 16 bit.val else v, 1)
  | some .two => (v, 2)
  | some (.many n) =>
    let r := Config.manyRead n v
    if r.1 = 0 then (v, 0) else if r.1 = 1 then (r.2, 1) else (v, 2)

/-- The byte at address `a` as corrected. -/
def nvReadByte (s : State) (a : Nat) : Byte :=
  let w := (nvRead s (a / 2)).1
  if a % 2 = 0 then w.setWidth 8 else (w >>> 8).setWidth 8

/-- `n` bytes from address `a` as corrected. -/
def nvReadBytes (s : State) (a n : Nat) : List Byte := (List.range n).map fun i => nvReadByte s (a + i)

/-- Some word among `n` bytes from an even address is uncorrectable. -/
def nvUncorrectable (s : State) (a n : Nat) : Bool :=
  (List.range ((n + 1) / 2)).any fun i => decide ((nvRead s (a / 2 + i)).2 = 2)

/-! ## Programming -/

/-- What bytes programmed from address `a` on come to: in partition I a bit only changes from 1 to 0 (R384). -/
def programmed (s : State) : Nat → List Byte → List Byte
  | _, [] => []
  | a, b :: rest => (if 0x10000 ≤ a then nvByte s a &&& b else b) :: programmed s (a + 1) rest

/-- Programs bytes from an even address; programmed words lose their errors. -/
def program (a : Nat) (bs : List Byte) (s : State) : State :=
  { s with nv := { s.nv with
      mem := cellWrites 0xFF s.nv.mem a (programmed s a bs)
      flaws := s.nv.flaws.filter fun f => !decide (a / 2 ≤ f.1 ∧ f.1 < a / 2 + (bs.length + 1) / 2) } }

/-- Programs the loaded words of a page (R360). -/
def programWords (p : Nat) : List (Nat × Word) → State → State
  | [], s => s
  | (i, w) :: rest, s => programWords p rest (program (64 * p + 2 * i) (leBytes 2 w.toNat) s)

/-- CRC-16 of a page as committed (R361). -/
def pageCrc (p : Nat) (s : State) : Word := crc16 (nvReadBytes s (64 * p) 64)

/-! ## Slug rings -/

/-- R378: slot and SEQ of the next write of a ring; none at SEQ FFFF_FFFFh. -/
def nextSlot (r : Fin 64) (s : State) : Option (Fin 16 × W32) :=
  match s.nv.ring.get r with
  | none => some (0, 1)
  | some c => if c.seq = 0xFFFFFFFF then none else some (c.slot + 1, c.seq + 1)

/-- Byte address of a slot (R376). -/
def slotAddr (r : Fin 64) (j : Fin 16) : Nat := 0xC000 + 256 * r.val + 16 * j.val

/-- Table 12-6. -/
def slotBytes (r : Fin 64) (value : BitVec 64) (seq : W32) : List Byte :=
  let b := leBytes 8 value.toNat ++ leBytes 4 seq.toNat ++ [BitVec.ofNat 8 r.val, 0x5A]
  b ++ leBytes 2 (crc16 b).toNat

/-- A committed ring write: the slot programmed and current. At SEQ FFFF_FFFFh it is refused with event 381h (R378). -/
def writeRing (r : Fin 64) (value : BitVec 64) (s : State) : State :=
  match nextSlot r s with
  | none => raise 0x381 s
  | some (j, seq) =>
    let s1 := program (slotAddr r j) (slotBytes r value seq) s
    { s1 with nv := { s1.nv with
        ring := s1.nv.ring.set r.val (some { slot := j, seq := seq, value := value }) r.isLt } }

/-- A seal-unit ring commit is requested (R40, R362, R410). -/
def requestRing (r : Fin 64) (value : BitVec 64) (job : SealJob) (s : State) : State :=
  { s with nv := { s.nv with sealQueue := s.nv.sealQueue ++ [(r, value, job)] } }

/-- The seal record as last requested: in the queue, in the commit that runs, or in the ring. -/
def latestRecord (s : State) : SealRecord :=
  let asked := s.nv.sealQueue.filterMap fun x => if x.1 = 1 then some x.2.1 else none
  let running := match s.nv.running with
    | some (.sealRing r v _) => if r = 1 then some v else none
    | _ => none
  match asked.getLast? with
  | some v => SealRecord.ofValue v
  | none => match running with
    | some v => SealRecord.ofValue v
    | none => sealRecord s

/-! ## The Imprint writer -/

/-- An entry written at position `n` (R382). -/
def writeEntry (n : Nat) (e : Entry) (s : State) : State :=
  let s1 := program (0x10000 + 16 * n) (entryBytes n e) s
  { s1 with imp := { s1.imp with
      last23 := if e.code = 0x23 then some e.data else s1.imp.last23
      last11 := if e.code = 0x11 then some e.data else s1.imp.last11
      lastPatch := if e.code = 0x61 ∨ e.code = 0x62 then some (e.code, e.data) else s1.imp.lastPatch } }

/-- The next free position moves on; event 392h after position 4,095 (R386). -/
def advancePosition (n : Nat) (s : State) : State :=
  let s1 := { s with imp := { s.imp with next := s.imp.next + n } }
  if s.imp.next < 4096 ∧ 4096 ≤ s1.imp.next then raise 0x392 s1 else s1

/-- The marker due at the next free position (R386). -/
def markerDue (s : State) : Option Byte :=
  if s.imp.next = 3968 then some 0x50 else if s.imp.next = 4031 then some 0x51 else none

/-- DATA of the markers (Table 12-8). -/
def markerData (code : Byte) : W32 := if code = 0x50 then 3968 else 4031

/-- A marker is committed (R386). -/
def writeMarker (code : Byte) (s : State) : State :=
  let s1 := writeEntry s.imp.next (nowEntry code (markerData code) s) s
  raise (if code = 0x50 then 0x390 else 0x391) (advancePosition 1 s1)

/-- The event of an entry that is not written: 36Fh where its position is held for code 11h (R46), 3B0h where no position
allows it (R386). -/
def notWritten (f : Fate) (s : State) : State :=
  match f with
  | .held => raise 0x36F s
  | .none => raise 0x3B0 s
  | _ => s

/-- R344: the composing port cannot log its opening: REF, event 355h. -/
def refusePort (s : State) : State := raise 0x355 { s with port := { s.port with pend := false, ref := true } }

/-- Sequence 11-2: a code 38h leaves the queue while an opening is pending: one of an earlier session, or its own, for which
`own` says what follows. -/
def portEntry (own : State → State) (s : State) : State :=
  if !s.port.pend then s
  else if s.port.ahead = 0 then own s
  else { s with port := { s.port with ahead := s.port.ahead - 1 } }

/-- A queued entry is not written; without its code 38h an opening of the composing port ends (R344). -/
def dropEntry (x : Byte × Fate) (s : State) : State :=
  notWritten x.2 (when (decide (x.1 = 0x38)) (portEntry refusePort) s)

/-- Queue entries that no position allows any more are not stored: the rest of the queue, and those entries (R386, R46). -/
def dropDead (isOpen : Bool) (p : Nat) : List Entry → List Entry × List (Byte × Fate)
  | [] => ([], [])
  | e :: rest =>
    match fate isOpen e.code p with
    | .takes => (e :: rest, [])
    | .waits => let x := dropDead isOpen p rest; (e :: x.1, x.2)
    | f => let x := dropDead isOpen p rest; (x.1, (e.code, f) :: x.2)

/-- How many of the entries take positions from `p` on within the page of `p` (R385). -/
def batchSize (isOpen : Bool) (page : Nat) : Nat → List Entry → Nat
  | _, [] => 0
  | p, e :: rest =>
    if p / 4 = page ∧ skipMarker p = p ∧ fate isOpen e.code p = .takes then 1 + batchSize isOpen page (p + 1) rest
    else 0

/-- Number of entries at the head of the queue that wait for the reserve (R46). -/
def waitingAhead (isOpen : Bool) (p : Nat) : List Entry → Nat
  | [] => 0
  | e :: rest => if fate isOpen e.code p = .takes then 0 else 1 + waitingAhead isOpen p rest

/-! ## Which operation starts next (R362) -/

/-- The controller may start an operation: it is idle, powered and not held for a reset (but a reset that waits for a KEYST
command lets the increment of that command run, R339), and in start-up the start-up Imprint writes are done (R72, R73,
R83). -/
def mayStart (s : State) : Bool :=
  s.nv.running.isNone && (s.pwr.heldReset.isNone || s.key.op.isSome) &&
  (match s.pwr.phase with
   | .startup => s.pwr.migrated
   | .run | .makeready => true
   | _ => false)

/-- An operation begins. -/
def startOp (op : ArrayOp) (s : State) : State := { s with nv := { s.nv with running := some op } }

/-- R44: the increment has committed, or R378 lets the change proceed on its code 23h. -/
def incrementDone (s : State) : State :=
  let v := match s.sl.incr with
    | .ringing v => v
    | .logging v => v
    | _ => s.sl.counter
  let s1 := { s with sl := { s.sl with incr := .done, counter := v, deferred := [] } }
  s.sl.deferred.foldl (fun t d => applyDeferred d t) s1

/-- R378: a seal-unit write that ring 1 refuses: the attempt or the closing goes no further. -/
def abandonSealJob (job : SealJob) (s : State) : State :=
  match job with
  | .increment => incrementDone s
  | .count | .openSession => { s with sl := { s.sl with opening := .idle, token := [] } }
  | .closeSession => { s with sl := { s.sl with closing := .idle } }
  | .restamp => s

/-- Order 1: a seal-unit ring commit. At SEQ FFFF_FFFFh it is refused with event 381h (R378). -/
def startSeal (s : State) : Option State :=
  match s.nv.sealQueue with
  | [] => none
  | (r, v, job) :: rest =>
    let s1 := { s with nv := { s.nv with sealQueue := rest } }
    match nextSlot r s with
    | some _ => some (startOp (.sealRing r v job) s1)
    | none => some (abandonSealJob job (raise 0x381 s1))

/-- Order 2: the Imprint writer. -/
def startWriter (s : State) : State :=
  match markerDue s with
  | some c => startOp (.marker c) s
  | none =>
    let p := s.imp.next
    let d := dropDead (sessionOpen s) p s.imp.queue
    let s1 := forAll d.2 dropEntry { s with imp := { s.imp with queue := d.1 } }
    let k := waitingAhead (sessionOpen s) p d.1
    let n := batchSize (sessionOpen s) (p / 4) p (d.1.drop k)
    if n = 0 then s1 else startOp (.imprint k n) s1

/-- The next page of the device legal stores, oldest store first, and the stores without it (R361). -/
def nextLegalPage : List LegalStore → Option (Nat × List Byte × List LegalStore)
  | [] => none
  | l :: ls =>
    match l.pages with
    | (p, bs) :: rest => some (p, bs, { l with pages := rest } :: ls)
    | [] => (nextLegalPage ls).map fun x => (x.1, x.2.1, l :: x.2.2)

/-- Order 3: the pending host operation, checked again (R360; a refusal empties the page buffer too, R363), or the next page
of a device legal store (R361). A change of partition L waits for its increment. -/
def startHost (s : State) : State :=
  match s.nv.host with
  | some (.page p ws) =>
    if (inL p && !inMakeready s) || isProtected s.nv.bp p then
      raise 0x364 { s with nv := { s.nv with host := none, bufPage := none, bufWords := [] } }
    else if inL p && !changeFree s then s
    else startOp (.hostPage p ws) { s with nv := { s.nv with host := none } }
  | some (.ring r v) => startOp (.hostRing r v) { s with nv := { s.nv with host := none } }
  | none =>
    match nextLegalPage s.nv.legal with
    | some (p, bs, rest) =>
      if changeFree s then startOp (.legalPage p bs) { s with nv := { s.nv with legal := rest } } else s
    | none => s

/-- R367: the words of a page need no correction, some need one, or some cannot be corrected (0, 1, 2). -/
def pageState (p : Nat) (s : State) : Nat :=
  (List.range 32).foldl (fun m i => max m (nvRead s (32 * p + i)).2) 0

/-- R366: the next page of the cycle; event 36Dh when a cycle completes. -/
def nextRefreshPage (s : State) : State :=
  let p := s.bkp.refreshPage
  let s1 := { s with bkp := { s.bkp with refreshPage := if 2047 ≤ p then 0 else p + 1 } }
  when (decide (2047 ≤ p)) (raise 0x36D) s1

/-- R367: the margin read of a page: a weak one is rewritten, one that cannot be corrected is left with event 36Bh. -/
def examinePage (m : MarginReading) (s : State) : State :=
  let p := s.bkp.refreshPage
  let st := pageState p s
  let s1 := if st = 2 then raise 0x36B s
    else if m.weak ∨ st = 1 then startOp (.refresh p) s
    else s
  nextRefreshPage s1

/-- Order 4: refresh, only if nothing else is queued (R362, R368) and in RUN only (R366): an examination that still waits when
the device leaves RUN is missed (log entry 47). -/
def startRefresh (s : State) : State :=
  match s.nv.refresh with
  | none => s
  | some m =>
    if s.pwr.phase ≠ .run then { s with nv := { s.nv with refresh := none } }
    else if nvIdle s && s.imp.queue.isEmpty then examinePage m { s with nv := { s.nv with refresh := none } }
    else s

/-- R362: the controller starts the next operation when it may: the seal unit, the Imprint writer, the host or a legal
store, refresh. -/
def kick (s : State) : State :=
  if !mayStart s then s
  else
    match startSeal s with
    | some s1 => s1
    | none =>
      let s1 := startWriter s
      if s1.nv.running.isSome then s1
      else
        let s2 := startHost s1
        if s2.nv.running.isSome then s2 else startRefresh s2

/-! ## The end of an operation -/

/-- The page of a running operation, which reads as busy (R358). -/
def busyPage (s : State) : Option Nat :=
  match s.nv.running with
  | some (.hostPage p _) => some p
  | some (.legalPage p _) => some p
  | some (.refresh p) => some p
  | some (.hostRing r _) => (nextSlot r s).map fun x => slotAddr r x.1 / 64
  | some (.sealRing r _ _) => (nextSlot r s).map fun x => slotAddr r x.1 / 64
  | some (.imprint ..) => some (1024 + s.imp.next / 4)
  | some (.marker _) => some (1024 + s.imp.next / 4)
  | _ => none

/-- Table 02-1 with OPEN and VOIDS cleared (Sequence 02-2, step 5). -/
def closedRecord (s : State) : BitVec 64 := ({ sealRecord s with isOpen := false, voids := false } : SealRecord).value

/-- What the commit of an entry brings about: after code 23h the seal unit requests ring 0 (R44, R410), after code 11h of a
closing the record (Sequence 02-2, step 5); code 38h lets the composing port open (Sequence 11-2). -/
def afterEntry (s : State) (e : Entry) : State :=
  if e.code = 0x23 then
    match s.sl.incr with
    | .logging v => requestRing 0 (v.setWidth 64) .increment { s with sl := { s.sl with incr := .ringing v } }
    | _ => s
  else if e.code = 0x11 then
    if s.sl.closing = .logging then
      requestRing 1 (closedRecord s) .closeSession { s with sl := { s.sl with closing := .recording } }
    else s
  else if e.code = 0x38 then portEntry (fun t => { t with port := { t.port with logged := true } }) s
  else s

/-- Entries written one after another from the next free position (R385). -/
def writeEntries (s : State) (es : List Entry) : State :=
  es.foldl (fun t e => afterEntry (advancePosition 1 (writeEntry t.imp.next e t)) e) s

/-- R40, R42 to R44: what the end of a seal-unit ring commit brings about. -/
def sealJobDone (job : SealJob) (s : State) : State :=
  match job with
  | .increment => incrementDone s
  | .count =>
    match s.sl.opening with
    | .counting pre began spoilt => { s with sl := { s.sl with opening := .counted pre began spoilt } }
    | _ => s
  | .openSession =>
    match s.sl.opening with
    | .opening void => { s with sl := { s.sl with opening := .opened void } }
    | _ => s
  | .closeSession => { s with sl := { s.sl with closing := .recorded } }
  | .restamp => { s with pwr := { s.pwr with rtcLost := false } }

/-- R367: a refresh rewrite ends: partitions P, L and S hold their words as corrected; partition I holds the same bits, with
the pulse reapplied. -/
def refreshDone (p : Nat) (s : State) : State :=
  raise 0x36A (if p < 1024 then program (64 * p) (nvReadBytes s (64 * p) 64) s else s)

/-- A page belongs to the region that stores of this kind write (Table 12-2). -/
def StoreKind.owns (p : Nat) : StoreKind → Bool
  | .forme .. => decide (520 ≤ p ∧ p ≤ 559)
  | .cal .. => decide (560 ≤ p ∧ p ≤ 583)
  | .case .. => decide (600 ≤ p ∧ p ≤ 764)

/-- Every page of a store has committed. -/
def storeCommitted (l : LegalStore) (s : State) : Bool :=
  l.pages.isEmpty &&
  (match s.nv.running with
   | some (.legalPage p _) => !l.kind.owns p
   | _ => true)

/-- The entry that reports a store: code 21h (R198), 20h (R229) or 22h (R258), with its DATA. -/
def storeEntry : StoreKind → Byte × W32
  | .forme k src preset image =>
    (0x21, BitVec.ofNat 32 (k.val * 2 ^ 24 + 2 ^ 23 * flag src + (if src then preset.toNat else 0) * 2 ^ 20
      + (crc16 (bytesOfW32s image.toList)).toNat))
  | .case _ slot icrc _ _ _ => (0x20, BitVec.ofNat 32 ((600 + 33 * slot) * 65536 + icrc.toNat))
  | .cal k slot set =>
    (0x22, BitVec.ofNat 32 (k.val * 2 ^ 24 + fieldOf (set.get 0) 0 4 * 2 ^ 20 + 2 ^ 19 * flag (bitOf (set.get 0) 4)
      + 2 ^ 18 * slot + (crc16 (bytesOfW32s set.toList)).toNat))

/-- R219, R249, R280: at PFAIL or a reset a store whose last page has committed still logs its entry; one whose last page is
being programmed waits for it; the others are cut short. -/
def shedStores (s : State) : State :=
  let last := s.nv.legal.filter fun l => l.pages.isEmpty
  forAll (last.filter fun l => storeCommitted l s) (fun l => logNow (storeEntry l.kind).1 (storeEntry l.kind).2)
    { s with nv := { s.nv with legal := last.filter fun l => !storeCommitted l s } }

/-- R360, R361, R378, R379, R385: the effect of an operation at its end, but for shadow stores. -/
def finishOp (op : ArrayOp) (s0 : State) : State :=
  let s := { s0 with nv := { s0.nv with running := none } }
  match op with
  | .hostPage p ws =>
    let s1 := raise 0x360 (programWords p ws s)
    if inL p then logNow 0x20 (BitVec.ofNat 32 (p * 65536 + (pageCrc p s1).toNat)) s1 else s1
  | .hostRing r v => raise 0x380 (writeRing r v s)
  | .legalPage p bs =>
    when (decide (s.pwr.phase = .powerFail) || s.pwr.heldReset.isSome) shedStores (program (64 * p) bs s)
  | .sealRing r v job => sealJobDone job (writeRing r v s)
  | .imprint first n =>
    let es := (s.imp.queue.drop first).take n
    writeEntries { s with imp := { s.imp with queue := s.imp.queue.take first ++ s.imp.queue.drop (first + n) } } es
  | .marker c => writeMarker c s
  | .refresh p => refreshDone p s
  | .store .. => s0

/-- The events that the end of an operation raises. -/
def completionEvents (op : ArrayOp) (s : State) : List Nat :=
  match op with
  | .hostPage .. => [0x360]
  | .hostRing .. => [0x380]
  | .store cmd _ _ number => (if cmd then [0x370] else []) ++ (if number = 1000000 then [0x372] else [])
  | .refresh _ => [0x36A]
  | .marker c => [if c = 0x50 then 0x390 else 0x391]
  | .imprint _ n => if 4096 ≤ s.imp.next + n then [0x392] else []
  | _ => []

/-- R396, R72: an operation that ends behind which a reset is held is reported at the release of that reset. -/
def reportAtRelease (op : ArrayOp) (s : State) : State :=
  if s.pwr.heldReset.isSome then
    { s with pwr := { s.pwr with releaseEvents := s.pwr.releaseEvents ++ completionEvents op s } }
  else s

/-! ## Direct commits of start-up -/

/-- The markers that are due are written, then an entry at the next position, if Table 12-9 and R46 allow it there: the state
and what became of the entry. Start-up commits its entries so (R79, R51, R422). -/
def commitDirect (e : Entry) (s : State) : State × Fate :=
  let s1 := match markerDue s with
    | some c => writeMarker c s
    | none => s
  let f := fate (sessionOpen s1) e.code s1.imp.next
  (if f = .takes then advancePosition 1 (writeEntry s1.imp.next e s1) else s1, f)

end Sys2Proof.Machine
end

