-- ==== Sys2Proof/Machine/KeyStore.lean ====
section
/-! DEFINITION. Machine/KeyStore.lean: the key store, the zeroize and what it does to work in progress (R331, R333, R337,
R339, R416), and the request that opens the composing port (R343, R344). -/

namespace Sys2Proof.Machine

/-! ## Slots -/

/-- Table 11-5: words of a slot. -/
def slotWords (slot : Nat) : Nat := if slot = 1 ∨ slot = 4 then 8 else 16

/-- R337: word i of a slot holds bytes 2i in [15:8] and 2i + 1 in [7:0]. -/
def slotValue (n : Nat) (ws : List Word) : BitVec n := BitVec.ofNat n (ofBe (bytesOfWordsHigh ws))

/-- A slot written with its words, or cleared, with its presence bit. The erasure of VER sets the void flag (R337). -/
def setSlot (slot : Nat) (ws : Option (List Word)) (k : Keys) : Keys :=
  let v := ws.getD []
  let p := setBit k.pres slot ws.isSome
  match slot with
  | 0 => { k with sign := slotValue 256 v, pres := p }
  | 1 => { k with link := slotValue 128 v, pres := p }
  | 2 => { k with ver := slotValue 256 v, pres := p, void := k.void || ws.isNone }
  | 3 => { k with host := slotValue 256 v, pres := p }
  | _ => k

/-- R339: DATA of code 60h: 01h for a commit with the check value of the key that it wrote, 02h for an erasure. -/
def linkCheckData (key : Option (BitVec 128)) : W32 :=
  match key with
  | some k => BitVec.ofNat 32 (0x01000000 + ofBe ((aes128 (beBytes 16 k.toNat) (List.replicate 16 0)).take 2))
  | none => 0x02000000

/-- R339, R409: code 60h is queued for each check value that is due, oldest first. -/
def flushCheck (s : State) : State :=
  forAll s.key.check (fun key t => logNow 0x60 (linkCheckData key) t) { s with key := { s.key with check := [] } }

/-- R339: the slot of a COMMIT (with its words) or of an ERASE is written: events 351h and 352h; for LINK the check value of
that key is due. While the clear line is asserted no write reaches the store (R332). -/
def writeSlot (slot : Nat) (ws : Option (List Word)) (s : State) : State :=
  let k := if s.key.clear && ws.isSome then s.key else setSlot slot ws s.key
  let s1 := { s with key := { k with op := none, check := if slot = 1 then k.check ++ [ws.map (slotValue 128)] else k.check } }
  raise (if ws.isSome then 0x351 else 0x352) s1

/-! ## Zeroize -/

/-- R333: DATA of code 33h. -/
def zeroizeData (cause : Nat) (s : State) : W32 :=
  BitVec.ofNat 32
    (cause * 2 ^ 24 + 2 ^ 23 * flag (decide (s.key.pres = 0)) + 2 ^ 22 * flag (decide (s.pwr.phase = .lockup)))

/-- R331, R337, R349: the store after the clear line has asserted. A pending COMMIT is gone with its staged words; a pending
ERASE is carried out; an open read phase continues. -/
def clearedKeys (k : Keys) : Keys :=
  { k with
    sign := 0, link := 0, ver := 0, host := 0, pres := 0, void := true, clear := true, stage := [], dph := false
    op := match k.op with
      | some (slot, none) => some (slot, none)
      | _ => none }

/-- Table 13-4: an opening check in progress ends as a denial. -/
def spoilOpening (o : Opening) : Opening :=
  match o with
  | .counting pre began _ => .counting pre began true
  | .counted pre began _ => .counted pre began true
  | .checking _ void began => .checking false void began
  | o => o

/-- The commit of code 11h has begun (Sequence 02-2, step 4). -/
def sealEntryRuns (s : State) : Bool :=
  match s.nv.running with
  | some (.imprint first n) => ((s.imp.queue.drop first).take n).any fun e => decide (e.code = 0x11)
  | _ => false

/-- Table 13-4: a closing before the commit of its code 11h begins is abandoned, and that entry with it. -/
def abandonClosing (s : State) : State :=
  if s.sl.closing = .waiting ∨ (s.sl.closing = .logging ∧ sealEntryRuns s = false) then
    raise 0x12 { s with
      sl := { s.sl with closing := .idle, clref := true }
      imp := { s.imp with
        queue := s.imp.queue.filter fun e => decide (e.code ≠ 0x11)
        heldSteps := s.imp.heldSteps.filter fun e => decide (e.code ≠ 0x11) } }
  else s

/-- Sequence 11-1, step 3: the key registers of the hash and cipher unit are cleared. The link key that it had latched is gone:
until the next origin no frame is formed or accepted (Table 13-4, R286). -/
def clearCores (s : State) : State :=
  { s with sh := { s.sh with signKey := 0 }, gl := { s.gl with key := 0, keyCut := true } }

/-- Table 13-4: a signed close that has not merged is abandoned. -/
def abandonSigning (s : State) : State :=
  if s.sh.busy then
    raise 0x377 { s with sh := { s.sh with busy := false, started := false, closeBit := false, ref := true } }
  else s

/-- R331, R333, R334, R348, R416: a zeroize with its cause: source number, 20h, 21h or 22h. While the clear line is asserted
a further one extends nothing and adds no entry. A LIVETEST injection writes no code 33h (R150: `log` is false). -/
def zeroizeLogged (log : Bool) (cause : Nat) (s : State) : State :=
  if s.key.clear then s
  else
    let data := zeroizeData cause s
    let s1 := { s with
      key := clearedKeys s.key
      fk := { s.fk with zout := true, pulseAlert := s.fk.pulseAlert || decide (0x20 ≤ cause) }
      sl := { s.sl with opening := spoilOpening s.sl.opening } }
    let s2 := abandonSigning (abandonClosing (clearCores s1))
    when log (logNow 0x33 data) (post 0x350 s2)

/-- A zeroize with its code 33h. -/
def zeroize (cause : Nat) (s : State) : State := zeroizeLogged true cause s

/-! ## Composing port -/

/-- R343: entries of code 38h that are queued. -/
def portEntries (s : State) : Nat := ((s.imp.queue ++ s.imp.heldSteps).filter fun e => decide (e.code = 0x38)).length

/-- R344: the Imprint rules leave room for code 38h. -/
def portRoom (s : State) : Bool :=
  (decide (fate (sessionOpen s) 0x38 (nextPosition s) = .takes) ||
    decide (fate (sessionOpen s) 0x38 (nextPosition s) = .waits)) && decide (s.imp.queue.length < 28)

/-- R343, R344, R345: Sequence 11-2, steps 1 to 3: the store is cleared, code 33h and code 38h are queued; without room for
code 38h the port never opens. `byTest`: the TEST pin caused it. -/
def requestPort (ir : Byte) (byTest : Bool) (s : State) : State :=
  let s1 := zeroize (if byTest then 0x22 else 0x21) s
  if portRoom s1 then
    let s2 := { s1 with port := { s1.port with pend := true, logged := false, ahead := portEntries s1 } }
    logNow 0x38 (BitVec.ofNat 32 (ir.toNat * 2 ^ 24 + 2 ^ 23 * flag byTest)) s2
  else refusePort s1

end Sys2Proof.Machine
end

