-- ==== Sys2Proof/Machine/Reset.lean ====
section
/-! DEFINITION. Machine/Reset.lean: what each reset leaves (Table 03-3), when a reset that waits is taken (R72), and `complete`,
which ends every command. -/

namespace Sys2Proof.Machine

/-! ## Resets (Table 03-3) -/

/-- NVC at a reset: the array, its errors and the rings as scanned are kept (R72, R363, R379). -/
def Nv.afterReset (n : Nv) : Nv :=
  { Nv.reset with mem := n.mem, flaws := n.flaws, ring := n.ring }

/-- The Imprint log and its queue are kept, but for the code 11h of a closing that has not come to its commit: start-up
completes the closing with its own (R51). The check of R388 ends. -/
def Imprint.afterReset (i : Imprint) : Imprint :=
  { i with
    verify := none, verr := false, first := 0x1FFF
    queue := i.queue.filter fun e => decide (e.code ≠ 0x11)
    heldSteps := i.heldSteps.filter fun e => decide (e.code ≠ 0x11) }

/-- R374: an open transaction is discarded with DISC; the SRAM and its twin are kept. -/
def Shadow.afterReset (h : Shadow) : Shadow :=
  { h with
    staging := none, sign := false, busy := false, started := false, closeBit := false, disc := h.staging.isSome
    ref := false, base := 0 }

/-- R391: the staged words and the snapshot lie in SYS. -/
def Bkp.afterReset (b : Bkp) : Bkp := { b with stageL := none, stageH := none, snap := none }

/-- R338: staging and phases of KEYST are cleared. -/
def Keys.afterReset (k : Keys) : Keys :=
  { k with stage := [], dph := false, rph := false, readPos := 0, slot := 0, op := none, check := [] }

/-- Tables 11-8 to 11-10: the fields that a reset changes. -/
def Frisket.afterReset (f : Frisket) : Frisket :=
  { f with livetest := false, papply := false, perr := 0, respPage := false, calBoth := false, calAge := 0 }

/-- R342, R343: a session ends; the instruction register is kept. -/
def Port.afterReset (p : Port) : Port := { p with isOpen := false, pend := false, ref := false, logged := false, ahead := 0 }

/-- Groups 2Eh to 35h among the 1,024 events. -/
def frisketGroups : BitVec 1024 := (BitVec.allOnes 128).setWidth 1024 <<< 0x2E0

/-- R136: events, enables, counters and flags are cleared; what the detectors of the BKP domain hold is theirs. -/
def Events.afterReset (e : Events) : Events := { Events.reset with held := e.held &&& frisketGroups }

/-- Table 03-3: the internal reset is asserted with a cause; each field takes its After POR value. -/
def resetFields (cause : BitVec 3) (s : State) : State :=
  { s with
    pwr := { s.pwr with
      phase := .reset, cause := cause, heldReset := none, srst := false, migrated := false, digested := false }
    sys := { Sys.reset with lfxrun := s.sys.lfxrun, bkprc := s.sys.bkprc, lfxlost := s.sys.lfxlost }
    bus := Bus.reset
    ev := s.ev.afterReset
    sl := { Seal.reset with digest := s.sl.digest, counter := s.sl.counter }
    nv := s.nv.afterReset
    imp := s.imp.afterReset
    sh := s.sh.afterReset
    bkp := s.bkp.afterReset
    key := s.key.afterReset
    fk := s.fk.afterReset
    port := s.port.afterReset
    fe := Front.reset, fm := Forme.reset, cs := Cases.reset, tone := Tone.reset, cal := Cal.reset, kern := Kern.reset
    gl := Galley.reset }

/-- R409: a check value that is due is queued before the reset takes effect. -/
def resetSys (cause : BitVec 3) (s : State) : State := resetFields cause (flushCheck s)

/-- R72, R339: an operation or a key command runs behind which a reset is held. -/
def resetWaits (s : State) : Bool := s.nv.running.isSome || s.key.op.isSome

/-- R72: a reset arrives. Queued host writes and stores are discarded (R219); the reset is held while an operation runs. -/
def arriveReset (cause : BitVec 3) (s0 : State) : State :=
  let s := shedStores s0
  if resetWaits s then
    { s with
      pwr := { s.pwr with heldReset := some (s.pwr.heldReset.getD cause) }
      nv := { s.nv with host := none } }
  else resetSys cause s

/-- R72: a held reset takes effect once nothing holds it. -/
def settleReset (s : State) : State :=
  match s.pwr.heldReset with
  | some cause => if resetWaits s then s else resetSys cause s
  | none => s

/-! ## The end of a command -/

/-- What ends every command: a running injection whose detector has ceased to evaluate ends (R475), steps held for a place of
the log queue go on (R385), a reset that waits is taken once nothing holds it (R72), the NV controller starts the next
operation (R362), and the LIVE conditions are evaluated (R91). The st of the command is over (log entry 48). -/
def settled (s : State) : State :=
  { liveCheck (kick (settleReset (admitHeld (injectionCheck s)))) with mark := .none }

/-- A command answers the state of its own effect, settled. -/
def complete (s : State) : Host.Outcome State Fault Refusal := .next (settled s)

/-- The same for a command whose st still decides something of the next one (log entry 48). -/
def completeMarked (m : StMark) (s : State) : Host.Outcome State Fault Refusal := .next { settled s with mark := m }

end Sys2Proof.Machine
end

