-- ==== Sys2Proof/Machine/Restore.lean ====
section
/-! DEFINITION. Machine/Restore.lean: what partition L holds for the device: the configuration words of page 512, stored
formes, calibration sets, cases and the patch image; the legal digest; what entry to RUN overwrites. -/

namespace Sys2Proof.Machine

/-! ## Configuration words -/

/-- The word at byte `b` of page 512, none where it is blank or uncorrectable. -/
def configWord (b : Nat) (s : State) : Option Word :=
  let r := nvRead s ((0x8000 + b) / 2)
  if r.2 = 2 ∨ r.1 = 0xFFFF then none else some r.1

/-- R164: the write of EXCCTL is refused. -/
def excctlBad (v : Word) : Bool :=
  let mode := fieldOf v 14 2
  let fdiv := fieldOf v 11 3
  let blank := fieldOf v 8 3
  decide (mode = 3 ∨ fdiv = 7 ∨ 4 < blank ∨ fieldOf v 6 2 = 3 ∨
    96 * 2 ^ fdiv < 8 * 2 ^ blank ∨ (mode = 1 ∧ blank = 0))

/-- R181: CLASS and RANGE of a channel from its word, where that is not bad. -/
def loadChannelWord (w : Option Word) (k : Chan) (s : State) : State :=
  match w with
  | some v => modFe k (fun c => { c with cls := bitOf v 13, range := BitVec.ofNat 2 (fieldOf v 10 2) }) s
  | none => s

/-- R181: EXCCTL, and CLASS and RANGE of each channel, from bytes 0 to 9; event A, 9 of CH_0 once for any bad word. -/
def loadFrontEnd (s : State) : State :=
  let e := match configWord 0 s with
    | some v => if excctlBad v then none else some v
    | none => none
  let s1 := match e with
    | some v => setExcctl v s
    | none => s
  let s2 := forAll channels (fun k => loadChannelWord (configWord (2 * k.val + 2) s) k) s1
  if e.isNone || channels.any (fun k => (configWord (2 * k.val + 2) s).isNone) then raise (feA 0 9) s2 else s2

/-- R262: KERNCTL fields and TXEN from bytes 10 to 13; event 16Dh once. -/
def loadCalWords (s : State) : State :=
  let s1 := match configWord 10 s with
    | some v => { s with kern := { s.kern with
        en := BitVec.ofNat 4 (fieldOf v 12 4), dith := bitOf v 11, qgate := bitOf v 10, frz := bitOf v 9
        qlim := BitVec.ofNat 6 (fieldOf v 0 6) } }
    | none => s
  let s2 := match configWord 12 s with
    | some v => { s1 with cal := { s1.cal with txen := bitOf v 11 } }
    | none => s1
  let s3 := forAll channels (fun k t => modKern k (fun c => { c with kok := kernOk k t }) t) s2
  if (configWord 10 s).isNone || (configWord 12 s).isNone then raise 0x16D s3 else s3

/-- R285 and Table 10-10: the GLCTL fields from bytes 14 and 15, or the values of the role. -/
def loadGalley (s : State) : State :=
  let dflt := { s with gl := { s.gl with
    en := isNode s, rng := true, trim := true, addr := if isNode s then 0xF else 0 } }
  let s1 := match configWord 14 s with
    | none => raise 0x2A7 dflt
    | some v =>
      if isNode s ∧ fieldOf v 0 4 = 0 then raise 0x2A7 dflt
      else { s with gl := { s.gl with
        en := bitOf v 15, rng := bitOf v 14, trim := bitOf v 13
        addr := if isNode s then BitVec.ofNat 4 (fieldOf v 0 4) else 0 } }
  { s1 with gl := { s1.gl with rngNow := s1.gl.rng, trimNow := s1.gl.trim } }

/-- R364: BP and BPL from bytes 16 and 17; else 0 and event 36Eh. -/
def loadProtection (s : State) : State :=
  match configWord 16 s with
  | none => raise 0x36E { s with nv := { s.nv with bpl := false, bp := 0 } }
  | some v => { s with nv := { s.nv with bpl := bitOf v 15, bp := BitVec.ofNat 2 (fieldOf v 0 2) } }

/-! ## Stored formes (R198, R199) -/

/-- First page of a forme slot (Table 07-5). -/
def formePage (k : Chan) (slot : Nat) : Nat := 520 + 10 * k.val + 5 * slot

/-- A slot's GEN and its payload, none where its CRC fails. `n` payload bytes lie from byte `a`, then GEN, then the CRC. -/
def storedSlot (a n : Nat) (s : State) : Option (Nat × List Byte) :=
  let body := nvReadBytes s a (n + 4)
  if crc16 body = BitVec.ofNat 16 (ofLe (nvReadBytes s (a + n + 4) 2)) then
    some (ofLe (body.drop n), body.take n)
  else none

/-- The valid one of two slots with the higher GEN, with its number. -/
def betterSlot (x y : Option (Nat × List Byte)) : Option (Nat × Nat × List Byte) :=
  match x, y with
  | some a, some b => if a.1 < b.1 then some (1, b.1, b.2) else some (0, a.1, a.2)
  | some a, none => some (0, a.1, a.2)
  | none, some b => some (1, b.1, b.2)
  | none, none => none

/-- R198: the stored forme of a channel: slot, GEN, image bytes. -/
def storedForme (k : Chan) (s : State) : Option (Nat × Nat × List Byte) :=
  betterSlot (storedSlot (64 * formePage k 0) 256 s) (storedSlot (64 * formePage k 1) 256 s)

/-- R198: the slot to write and its GEN. Where neither slot holds a valid image R198 gives only GEN = 1: slot 0 is written
(DESIGN CHOICE, log entry 55). -/
def nextStore (cur : Option (Nat × Nat × List Byte)) : Nat × Nat :=
  match cur with
  | some (slot, gen, _) => (1 - slot, gen + 1)
  | none => (0, 1)

/-- 32-bit words of bytes, low byte first. -/
def w32sOfBytes (bs : List Byte) : List W32 := (pieces 4 bs.length bs).map fun q => BitVec.ofNat 32 (ofLe q)

/-- R236: the delays of a channel computed again from its active forme and its active case. -/
def recompute (k : Chan) (s : State) : State :=
  modFm k (fun c => { c with gd := gdTable c.active (activeCase (s.cs.ch.get k)) }) s

/-- A checked image becomes the active forme and the edit buffer (R196, R199). -/
def installForme (k : Chan) (image : Vector W32 64) (s : State) : State :=
  modFm k (fun c => { c with edit := image, active := image, valid := true, stages := [] }) s

/-- R199: the forme of each channel at reset release. -/
def restoreForme (k : Chan) (s : State) : State :=
  if !isLegal k s then s
  else
    match storedForme k s with
    | none => raise (fmA k 6) s
    | some (_, _, bs) =>
      let image := imageOf (w32sOfBytes bs)
      if (loaderCheck true image).isNone then raise (fmA k 5) (installForme k image s) else raise (fmA k 6) s

/-! ## Stored cases (R230, R231) -/

/-- A trailer of the case pool (Table 08-3). -/
structure Trailer where
  gen : Nat
  chan : Nat
  lower : Bool
  isComplete : Bool
  icrc : Word
  fcrc : Word
deriving DecidableEq, Repr

/-- First page of a pool slot. -/
def poolPage (q : Nat) : Nat := 600 + 33 * q

/-- The image bytes of a pool slot. -/
def poolImage (q : Nat) (s : State) : List Byte := nvReadBytes s (64 * poolPage q) 2048

/-- R230: the trailer of a pool slot, none where its TCRC fails. -/
def trailerOf (q : Nat) (s : State) : Option Trailer :=
  let b := nvReadBytes s (64 * (poolPage q + 32)) 14
  if crc16 (b.take 12) = BitVec.ofNat 16 (ofLe (b.drop 12)) then
    let icrc := BitVec.ofNat 16 (ofLe ((b.drop 8).take 2))
    some
      { gen := ofLe (b.take 4), chan := (b.getD 4 0).toNat, lower := decide (b.getD 5 0 ≠ 0)
        isComplete := decide (ofLe ((b.drop 6).take 2) = 0xA5A5) && decide (crc16 (poolImage q s) = icrc)
        icrc := icrc, fcrc := BitVec.ofNat 16 (ofLe ((b.drop 10).take 2)) }
  else none

/-- The slot with the highest GEN among those whose trailer satisfies `p`. -/
def bestSlot (p : Trailer → Bool) (s : State) : Option (Nat × Trailer) :=
  [0, 1, 2, 3, 4].foldl
    (fun acc q => match trailerOf q s with
      | none => acc
      | some t =>
        if !p t then acc
        else match acc with
          | none => some (q, t)
          | some (_, u) => if u.gen < t.gen then some (q, t) else acc) none

/-- R230: the lowest slot that does not hold the complete image with the highest GEN of any channel, and the next GEN. -/
def nextPoolSlot (s : State) : Nat × Nat :=
  let held := channels.filterMap fun k => (bestSlot (fun t => decide (t.chan = k.val) && t.isComplete) s).map (·.1)
  let slot := ([0, 1, 2, 3, 4].find? fun q => !held.contains q).getD 0
  (slot, match bestSlot (fun _ => true) s with | some (_, t) => t.gen + 1 | none => 1)

/-- A case as 2,048 image bytes, coefficient i at bytes 4i (Sequence 08-1). -/
def caseBytes (m : List (Nat × W32)) : List Byte := bytesOfW32s (cellRange 0 m 0 512)

/-- The 256 image bytes of a forme. -/
def formeBytes (image : Vector W32 64) : List Byte := bytesOfW32s image.toList

/-- The image of a pool slot written to the case it names, which becomes active; the other case cleared (R231). -/
def loadCase (k : Chan) (q : Nat) (t : Trailer) (s : State) : State :=
  let m := cellWrites 0 [] 0 (w32sOfBytes (poolImage q s))
  modCs k (fun c => { setCase t.lower m { c with upper := [], lower := [] } with act := t.lower }) s

/-- R231: where the active forme is the image of a ROM preset, the CRC of that image must be FCRC. -/
def fcrcFits (k : Chan) (t : Trailer) (s : State) : Bool :=
  let image := (s.fm.ch.get k).active
  !([0, 1, 2, 3, 4, 5, 6, 7].any fun p => decide (image = presetImage (BitVec.ofNat 3 p))) ||
    decide (crc16 (formeBytes image) = t.fcrc)

/-- R231: the cases of each channel at reset release. -/
def restoreCase (k : Chan) (s : State) : State :=
  if !isLegal k s then s
  else
    match bestSlot (fun t => decide (t.chan = k.val)) s with
    | some (q, t) =>
      if t.isComplete && fcrcFits k t s then raise (csE k 2) (loadCase k q t s)
      else failCase k s
    | none => failCase k s
where
  /-- R231: the restore fails: VALID cleared, RSTF set, event 143h + 4k. -/
  failCase (k : Chan) (s : State) : State :=
    let s1 := match bestSlot (fun t => decide (t.chan = k.val) && t.isComplete) s with
      | some (q, t) => loadCase k q t s
      | none => s
    let s2 := modFm k (fun c => { c with valid := false }) s1
    raise (csE k 3) (modCs k (fun c => { c with rstf := true }) s2)

/-! ## Stored calibration sets (R257, R259) -/

/-- First page of a set slot (Table 09-3). -/
def calPage (k : Chan) (slot : Nat) : Nat := 560 + 6 * k.val + 3 * slot

/-- The stored set of a channel: slot, GEN, image bytes. -/
def storedCal (k : Chan) (s : State) : Option (Nat × Nat × List Byte) :=
  betterSlot (storedSlot (64 * calPage k 0) 132 s) (storedSlot (64 * calPage k 1) 132 s)

/-- NPTS, TSRC and the fields of a point of a set (Table 09-1). -/
def calPoints (set : Vector W32 33) : Nat := fieldOf (set.get 0) 0 4
def calExternal (set : Vector W32 33) : Bool := bitOf (set.get 0) 4
def calField (set : Vector W32 33) (p f : Nat) : W32 := (set[1 + 4 * p + f]?).getD 0
def calT (set : Vector W32 33) (p : Nat) : Int := ((calField set p 0).setWidth 16).toInt

/-- Check 2 of Table 09-2. -/
def calTempsBad (set : Vector W32 33) : Bool :=
  (List.range (calPoints set)).any fun p =>
    decide (calT set p < -6000 ∨ 15000 < calT set p) || (decide (0 < p) && decide (calT set p ≤ calT set (p - 1)))

/-- Check 4 of Table 09-2: a reserved header bit, or a T element of any of the eight points that is not sign-extended. -/
def calFormBad (set : Vector W32 33) : Bool :=
  decide (fieldOf (set.get 0) 5 27 ≠ 0) ||
  (List.range 8).any fun p =>
    decide (calField set p 0 ≠ ((calField set p 0).setWidth 16).signExtend 32)

/-- Check 1 of Table 09-2. -/
def calCountBad (set : Vector W32 33) : Bool := decide (calPoints set = 0 ∨ 8 < calPoints set)

/-- R259: the buffer is the stored set, or cleared. -/
def reloadCal (k : Chan) (s : State) : State :=
  modCal k (fun c => { c with buf := c.stored.getD (Vector.replicate 33 0) }) s

/-- R259: the stored set of a channel at reset release. -/
def restoreCal (k : Chan) (s : State) : State :=
  let found : Option (Vector W32 33) :=
    match storedCal k s with
    | none => none
    | some (_, _, bs) =>
      let set := vecOf 33 0 (w32sOfBytes bs)
      if calCountBad set || calTempsBad set || calFormBad set then none else some set
  let s1 := reloadCal k (modCal k (fun c => { c with stored := found }) s)
  raise (calE k (if found.isSome then 2 else 3)) s1

/-! ## Engine patch (R420 to R422) -/

/-- R421: PATCH, and the code and DATA of the outcome of a non-blank image. -/
def evalPatch (s : State) : Bool × Option (Byte × W32) :=
  let a := 64 * 584
  let h := nvReadBytes s a 12
  let at_ := fun i n => ofLe ((h.drop i).take n)
  if h.take 2 = [0xFF, 0xFF] then (false, none)
  else
    let len := at_ 6 2
    let reason : Nat :=
      if at_ 0 1 ≠ 0x9D ∨ at_ 1 1 ≠ 1 ∨ len < 4 ∨ 1008 < len ∨ len % 4 ≠ 0 then 1
      else if crc16 (h.take 10 ++ nvReadBytes s (a + 16) len) ≠ BitVec.ofNat 16 (at_ 10 2) ∨
          nvUncorrectable s a (16 + len) then 2
      else if at_ 2 4 / 4 % 2 = 0 then 3
      else 0
    let data := BitVec.ofNat 32 (reason * 2 ^ 24 + at_ 1 1 * 2 ^ 16 + at_ 10 2)
    (decide (reason = 0), some (if reason = 0 then 0x62 else 0x61, data))

/-! ## Legal digest and entry to RUN -/

/-- R49, Table 02-3: the digest message. -/
def digestMessage (s : State) : List Byte :=
  (channels.map fun k => if isLegal k s then (1 : Byte) else 0) ++ nvReadBytes s 0x8000 16384 ++
  ((channels.filter fun k => isLegal k s).map fun k =>
    formeBytes (s.fm.ch.get k).active ++ caseBytes (activeCase (s.cs.ch.get k))).flatten

/-- R49: the legal digest. -/
def legalDigest (s : State) : BitVec 256 := sha256 (digestMessage s)

/-- The first 32 bits of the digest last computed: DATA of code 11h. -/
def digestData (s : State) : W32 := (s.sl.digest >>> 224).setWidth 32

/-- Tables 06-10, 06-11: a mode change takes the SC bits to 0; requests on their way into MOD go on (R188). -/
def clearStartBits (f : Front) : Front :=
  { f with
    ch := f.ch.map fun c => { c with startBit := false, stopBit := false }
    goWait := 0, stopWait := 0, cancel := false }

/-- R11, R147, R338, Table 02-4: what every mode change clears: the SC bits of actions that go on among it. -/
def modeChange (s : State) : State :=
  { s with
    pwr := { s.pwr with srst := false }
    fk := { s.fk with papply := false }
    ev := { s.ev with armed := false }
    sl := { s.sl with token := [] }
    sh := { s.sh with closeBit := false }
    fe := clearStartBits s.fe
    fm := { s.fm with loadBit := false }
    cs := { s.cs with copyBit := false }
    gl := { s.gl with restartBit := false, goBit := false }
    key := { s.key with stage := [], dph := false, rph := false, readPos := 0, slot := 0 } }

/-- R200, R209, R259, R323, R346: what every entry to RUN overwrites. -/
def enterRun (s : State) : State :=
  let s1 := modeChange { s with pwr := { s.pwr with phase := .run } }
  let s2 := forAll channels
    (fun k t => reloadCal k (if isLegal k t then modFm k (fun c => { c with edit := c.active }) t else t)) s1
  { s2 with
    fm := { s2.fm with raw := channels.foldl (fun w k => setBit w k.val (!isLegal k s && bitOf s2.fm.raw k.val)) 0 }
    fk := { s2.fk with staging := s2.fk.active, livetest := false }
    sl := { s2.sl with incr := .none } }

/-- R337: the void flag clears when slots SIGN and VER are both present. -/
def clearVoid (k : Keys) : Keys := if bitOf k.pres 0 && bitOf k.pres 2 then { k with void := false } else k

end Sys2Proof.Machine
end

