-- ==== Sys2Proof/Machine/Power.lean ====
section
/-! DEFINITION. Machine/Power.lean: resets, the power-up and power-fail sequences, the supplies, heartbeat, watchdog and LIVE
(chapter 03). -/

namespace Sys2Proof.Machine

/-! ## Shadow twin (R370, R371) -/

/-- CRC-32 over the image and the store number. -/
def bankCrc (image : List Host.Cell) (number : W32) : W32 :=
  crc32 (cellRange 0 image 0 4096 ++ leBytes 4 number.toNat)

def Bank.isValid (b : Bank) : Bool := !b.torn && decide (b.crc = bankCrc b.image b.number)

/-- The valid bank with the higher store number; true stands for bank B. -/
def bestBank (h : Shadow) : Option (Bool × Bank) :=
  if h.bankA.isValid then
    if h.bankB.isValid && decide (h.bankA.number.toNat < h.bankB.number.toNat) then some (true, h.bankB)
    else some (false, h.bankA)
  else if h.bankB.isValid then some (true, h.bankB)
  else none

/-- R371: a shadow store begins: the other bank, the SRAM as it stands, the next number. -/
def startStore (cmd : Bool) (s : State) : State :=
  let target := match bestBank s.sh with
    | some (b, bank) => (!b, bank.number + 1)
    | none => (false, 1)
  startOp (.store cmd target.1 s.sh.sram target.2) s

/-- R371: a store ends: its bank holds the image. -/
def storeBank (bankB : Bool) (image : List Host.Cell) (number : W32) (s : State) : State :=
  let b : Bank := { image := image, number := number, crc := bankCrc image number, torn := false }
  let sh := if bankB then { s.sh with bankB := b } else { s.sh with bankA := b }
  { s with sh := sh, nv := { s.nv with running := none } }

/-- R370: the recall at power-on; event 371h at release where neither bank is valid. -/
def recallShadow (s : State) : State :=
  match bestBank s.sh with
  | some (_, b) =>
    { s with sh := { s.sh with sram := b.image }, pwr := { s.pwr with twinBad := false } }
  | none =>
    { s with
      sh := { s.sh with sram := [] }
      pwr := { s.pwr with twinBad := true, releaseEvents := s.pwr.releaseEvents ++ [0x371] } }

/-! ## Scans of step 4 (R377, R387) -/

/-- The sixteen bytes from address `a` are blank. -/
def blank16 (s : State) (a : Nat) : Bool := (List.range 16).all fun i => decide (nvByte s (a + i) = 0xFF)

/-- R376: a slot's SEQ and VALUE where it is valid. -/
def readSlot (r : Fin 64) (j : Fin 16) (s : State) : Option (W32 × BitVec 64) :=
  let a := slotAddr r j
  let b := nvReadBytes s a 16
  if crc16 (b.take 14) = BitVec.ofNat 16 (ofLe (b.drop 14)) ∧ b.getD 12 0 = BitVec.ofNat 8 r.val ∧ b.getD 13 0 = 0x5A ∧
      nvUncorrectable s a 16 = false then
    some (BitVec.ofNat 32 (ofLe ((b.drop 8).take 4)), BitVec.ofNat 64 (ofLe (b.take 8)))
  else none

/-- R377: the current slot of a ring and the number of invalid slots that are not blank. -/
def scanRing (r : Fin 64) (s : State) : Option RingSlot × Nat :=
  (List.finRange 16).foldl
    (fun acc j =>
      if blank16 s (slotAddr r j) then acc
      else match readSlot r j s with
        | none => (acc.1, acc.2 + 1)
        | some (seq, value) =>
          let here : RingSlot := { slot := j, seq := seq, value := value }
          match acc.1 with
          | none => (some here, acc.2)
          | some c => if c.seq.toNat < seq.toNat then (some here, acc.2) else acc) (none, 0)

/-- R377: every ring is scanned; event 383h for each invalid slot. -/
def scanRings (s : State) : State :=
  let found := (List.finRange 64).map fun r => scanRing r s
  let bad := (found.map (·.2)).sum
  { s with
    nv := { s.nv with ring := vecOf 64 none (found.map (·.1)) }
    pwr := { s.pwr with releaseEvents := s.pwr.releaseEvents ++ List.replicate bad 0x383 } }

/-- R387: what the scan of the log has found so far. -/
structure LogScan where
  next : Nat
  bad : Nat
  last23 : Option W32
  last11 : Option W32
  lastPatch : Option (Byte × W32)
deriving DecidableEq, Repr

/-- One position of the log (R387, R45, R51, R422). -/
def scanEntry (s : State) (acc : LogScan) (n : Nat) : LogScan :=
  let a := 0x10000 + 16 * n
  if blank16 s a then acc
  else
    let b := nvReadBytes s a 16
    let at1 := { acc with next := n + 1 }
    if crc16 (b.take 14) = BitVec.ofNat 16 (ofLe (b.drop 14)) then
      let code := b.getD 9 0
      let data := BitVec.ofNat 32 (ofLe ((b.drop 10).take 4))
      if code = 0x23 then { at1 with last23 := some data }
      else if code = 0x11 then { at1 with last11 := some data }
      else if code = 0x61 ∨ code = 0x62 then { at1 with lastPatch := some (code, data) }
      else at1
    else { at1 with bad := acc.bad + 1 }

/-- R387: the next free position and the last entries that start-up needs; event 393h for each invalid entry. -/
def scanImprint (s : State) : State :=
  let r := (List.range 4096).foldl (scanEntry s)
    { next := 0, bad := 0, last23 := none, last11 := none, lastPatch := none }
  { s with
    imp := { s.imp with next := r.next, last23 := r.last23, last11 := r.last11, lastPatch := r.lastPatch }
    pwr := { s.pwr with releaseEvents := s.pwr.releaseEvents ++ List.replicate r.bad 0x393 } }

/-! ## Power-on (Sequence 03-1, steps 1 to 4) -/

/-- R322: the loops' LFSRs are loaded, unless the noise source had failed. -/
def seedLfsr (failed : Bool) (s : State) : State :=
  if failed then post 0x356 s
  else { s with fk := { s.fk with lfsr := lfsrSeeds s.draws }, draws := s.draws + 4 }

/-- R139: the start-up self tests. -/
def selfTestEvents (env : PowerEnv) : List Nat :=
  (if env.romBad then [0x3D0] else []) ++ (if env.shaBad then [0x3D1] else []) ++ (if env.macBad then [0x3D2] else [])

/-- Sequence 03-1, steps 1 to 4, with a cause. Event 3A1h waits for the release that follows a BKP reset (R390). -/
def powerUp (env : PowerEnv) (cause : BitVec 3) (s : State) : State :=
  let failed := isSticky 0x3D3 s
  let rtcEvent := if s.pwr.bkpLost || s.pwr.releaseEvents.contains 0x3A1 then [0x3A1] else []
  let s1 := resetFields cause s
  let s2 := { s1 with
    pwr := { s1.pwr with
      vdd := true, vddio := env.vddio, vbat := env.vbat, bkpOnVdd := true, vcapSwitch := true, bkpLost := false
      rtcLost := s.pwr.rtcLost || s.pwr.bkpLost
      releaseEvents := rtcEvent, pfTxn := false }
    sh := { s1.sh with disc := s.pwr.pfTxn }
    port := { s1.port with tap := .testLogicReset, ir := 1, factory := false, test := env.test } }
  let s3 := seedLfsr failed (scanImprint (scanRings (recallShadow s2)))
  { s3 with pwr := { s3.pwr with releaseEvents := s3.pwr.releaseEvents ++ selfTestEvents env } }

/-- R77, R85: VDD rises through V_POR, from unpowered or from LOCKUP. -/
def execPowerOn (env : PowerEnv) (s : State) : Host.Outcome State Fault Refusal :=
  match s.pwr.phase with
  | .unpowered | .lockup => complete (powerUp env (if s.pwr.bkpLost then 2 else 1) s)
  | _ => complete s

/-- R86: a power-fail recovery is decided in LOCKUP while VDD stayed present. -/
def execPowerFailRecovery (env : PowerEnv) (s : State) : Host.Outcome State Fault Refusal :=
  if s.pwr.phase = .lockup ∧ s.pwr.vdd then complete (powerUp env 6 s) else complete s

/-! ## The other resets -/

/-- R71: the pulse is recognised. -/
def rstRecognised (ns draw : Nat) : Bool :=
  if ns ≤ 100 then false else if 1000 ≤ ns then true else Config.rstTaken draw

/-- R70 to R72: RST# low for `ns` nanoseconds; no effect in LOCKUP. -/
def execRstPinReset (ns : Nat) (s : State) : Host.Outcome State Fault Refusal :=
  let d := nextDraw s
  if sysLive s then
    complete (if rstRecognised ns d.1 then arriveReset 3 d.2 else d.2)
  else complete s

/-- R124, R132: a write of SYSCTL with SRST = 1; without KEY = C3h it changes nothing, with event 021h. SRST reads 1 while the
reset is held (R12, R72). -/
def softReset (w : Word) (s : State) : State :=
  if fieldOf w 8 8 = 0xC3 then
    let t := arriveReset 4 s
    { t with pwr := { t.pwr with srst := t.pwr.heldReset.isSome } }
  else raise 0x21 s

/-- R124: the write has SRST (bit 7) set. -/
def execSoftReset (w : Word) (s : State) : Host.Outcome State Fault Refusal :=
  complete (onBus (softReset w) s)

/-- R90: WDRST = 1 and a heartbeat that stayed stale. -/
def execWatchdogReset (s : State) : Host.Outcome State Fault Refusal :=
  complete (when (sysLive s && s.sys.wdrst && !s.sys.hbFresh) (arriveReset 5) s)

/-! ## Power fail (Sequence 03-2) -/

/-- R339: a KEYST command at PFAIL: its slot is written where its code 23h has committed, it waits where that entry is
being committed, else it is abandoned. -/
def keyAtPowerFail (s : State) : State :=
  match s.key.op with
  | none => s
  | some (slot, ws) =>
    match s.sl.incr with
    | .done | .ringing _ => writeSlot slot.toNat ws s
    | .logging _ =>
      match s.nv.running with
      | some (.imprint first n) =>
        if ((s.imp.queue.drop first).take n).any (fun e => decide (e.code = 0x23)) then s
        else { s with key := { s.key with op := none } }
      | _ => { s with key := { s.key with op := none } }
    | .none => { s with key := { s.key with op := none } }

/-- R176, R188: conversions stop and excitation turns off. -/
def stopFront (f : Front) : Front :=
  { f with
    gen := false, armed := false, goWait := 0, stopWait := 0, starts := [], stops := [], heldStarts := 0
    ch := forChan (fun c => { c with
      state := .stopped, startBit := false, stopBit := false, drv := false, waitE := false, settle := 0 }) f.ch }
where
  /-- The same update of the four channels. -/
  forChan (g : FeChan → FeChan) (v : Vector FeChan 4) : Vector FeChan 4 := channels.foldl (fun w k => setCh w k g) v

/-- R83: Sequence 03-2, step 1. The bus is released and the mode registers are left (R69, R338: a mode change). -/
def powerFailStep1 (s : State) : State :=
  let discarded := flag s.nv.host.isSome
  let page := match s.nv.running with
    | none | some (.store ..) => false
    | some _ => true
  let s1 := { s with
    pwr := { s.pwr with
      phase := .powerFail, heldReset := none, srst := false, vcapSwitch := false, pfDiscarded := discarded, pfPage := page
      pfTxn := false }
    sys := { s.sys with liveOn := false, live := false }
    ev := { s.ev with act := false }
    nv := { s.nv with host := none, sealQueue := [], bufPage := none, bufWords := [] }
    sh := { s.sh with busy := false, started := false, closeBit := false }
    bus := { s.bus with driven := false }
    port := { s.port with isOpen := false, pend := false, logged := false, ahead := 0 }
    fe := stopFront s.fe
    gl := { s.gl with state := .off, slot := none, tx := none } }
  flushCheck (keyAtPowerFail (shedStores s1))

/-- R374, R371: Sequence 03-2, step 3: an open transaction is discarded and the shadow is stored. -/
def powerFailStore (s : State) : State :=
  startStore false { s with
    pwr := { s.pwr with pfTxn := s.sh.staging.isSome }
    sh := { s.sh with staging := none } }

/-- R83: the next thing that the sequence does: it waits for an operation that runs, else the store begins. -/
def powerFailNext (s : State) : State := if s.nv.running.isSome then s else powerFailStore s

/-- R82, R83, R96: PFAIL is raised. -/
def powerFail (s : State) : State := powerFailNext (powerFailStep1 s)

/-- R397: what the bus asks for in the st of PFAIL is not performed, but counted (log entry 48); SYS held in reset takes no
access (R129). -/
def execPowerFail (s : State) : Host.Outcome State Fault Refusal :=
  match s.pwr.phase with
  | .reset | .startup | .run | .makeready => completeMarked (if sysLive s then .pfail else .none) (powerFail s)
  | _ => complete s

/-- R411: entries placed while one slot counts as occupied: the buffer, and how many were placed. -/
def placeEntries : List Entry → Bkp × Nat → Bkp × Nat
  | [], x => x
  | e :: rest, (b, n) =>
    if bufferTakes e.code (16 - b.buffer.length - 1) then
      placeEntries rest ({ b with buffer := b.buffer ++ [e] }, n + 1)
    else placeEntries rest (countLost b, n)

/-- The list without its last item that satisfies `p`; none where no item does. -/
def dropNewest (p : Entry → Bool) (es : List Entry) : Option (List Entry) :=
  let i := (es.reverse.findIdx? p)
  i.map fun j => (es.reverse.eraseIdx j).reverse

/-- R411: a full buffer gives up the newest entry that is neither 02h nor 33h, or else the newest 33h, for code 02h. -/
def roomForStore (b : Bkp) : Bkp :=
  if b.buffer.length < 16 then b
  else
    match dropNewest (fun e => decide (e.code ≠ 0x02 ∧ e.code ≠ 0x33)) b.buffer with
    | some es => countLost { b with buffer := es }
    | none =>
      match dropNewest (fun e => decide (e.code = 0x33)) b.buffer with
      | some es => countLost { b with buffer := es }
      | none => countLost { b with buffer := b.buffer.dropLast }

/-- Table 03-5: DATA of code 02h. -/
def storeData (placed : Nat) (s : State) : W32 :=
  BitVec.ofNat 32
    (min 0xFF s.pwr.pfDiscarded * 2 ^ 24 + placed * 2 ^ 16 + 2 * flag s.pwr.pfTxn + flag s.pwr.pfPage)

/-- R137, R38, R338, R69, R83: LOCKUP begins, which is a change of mode: the mailbox and its flags are emptied, SYS, its crystal
and its PLL stop (Table 03-4). -/
def enterLockup (s : State) : State :=
  { modeChange s with
    pwr := { s.pwr with phase := .lockup }
    sys := { s.sys with xrun := false, plllk := false, lnklk := false }
    bkp := { s.bkp with mailbox := [], flags := [], fullSignal := false }
    imp := { s.imp with queue := [], heldSteps := [] }
    fk := { s.fk with fallback := false } }

/-- R65: the BKP domain has a supply. -/
def bkpSupplied (s : State) : Bool := s.pwr.bkpOnVdd || s.pwr.vbat

/-- R81, R325, R390: the BKP domain has lost its supply. What the LFSRs hold afterwards is open: free values (log entry 4). In
LOCKUP nothing runs any more. -/
def resetBkp (s : State) : State :=
  { s with
    bkp := Bkp.reset, key := Keys.reset, fk := Frisket.reset (lfsrSeeds s.draws), draws := s.draws + 4
    ev := { s.ev with held := s.ev.held &&& ~~~frisketGroups }
    pwr := { s.pwr with bkpLost := true, phase := if s.pwr.phase = .lockup then .unpowered else s.pwr.phase } }

/-- R81, R434: the BKP domain is reset where neither VDD nor VBAT supplies it. -/
def bkpCheck (s : State) : State := if bkpSupplied s then s else resetBkp s

/-- R411: Sequence 03-2, step 4. -/
def lockup (s : State) : State :=
  let x := placeEntries (s.imp.queue ++ s.imp.heldSteps) (s.bkp, 0)
  let b := roomForStore x.1
  bkpCheck <| enterLockup { s with bkp := { b with buffer := b.buffer ++ [nowEntry 0x02 (storeData x.2 s) s] } }

/-- R371: a shadow store ends. A command store raises event 370h, the millionth store 372h; in the power-fail sequence a
command store is followed by the sequence's own, which leads to LOCKUP. -/
def storeDone (s : State) : State :=
  match s.nv.running with
  | some (.store cmd bankB image number) =>
    let s1 := storeBank bankB image number (reportAtRelease (.store cmd bankB image number) s)
    let s2 := when (decide (number = 1000000)) (raise 0x372) (when cmd (raise 0x370) s1)
    if s.pwr.phase = .powerFail then (if cmd then powerFailNext s2 else lockup s2) else s2
  | _ => s

def execShadowStoreDone (s : State) : Host.Outcome State Fault Refusal := complete (storeDone s)

/-- R84, R380: one word of a torn operation: it holds a free value, and may be uncorrectable. In partition I a bit only
changes from 1 to 0 (R384). -/
def tearWord (w : Nat) (s : State) : State :=
  let d := nextDraw s
  let v := Config.tornWord d.1 w
  let v' := if 0x8000 ≤ w then nvStored s w &&& v else v
  let s1 := program (2 * w) (leBytes 2 v'.toNat) d.2
  if Config.tornBad d.1 w then { s1 with nv := { s1.nv with flaws := (w, .two) :: s1.nv.flaws } } else s1

/-- The words that an operation programs (R360, R378, R385, R367). -/
def opWords (op : ArrayOp) (s : State) : List Nat :=
  match op with
  | .hostPage p ws => ws.map fun x => 32 * p + x.1
  | .legalPage p bs => (List.range ((bs.length + 1) / 2)).map (32 * p + ·)
  | .hostRing r _ | .sealRing r _ _ =>
    match nextSlot r s with
    | some (j, _) => (List.range 8).map (slotAddr r j / 2 + ·)
    | none => []
  | .imprint _ n => (List.range (8 * n)).map (0x8000 + 8 * s.imp.next + ·)
  | .marker _ => (List.range 8).map (0x8000 + 8 * s.imp.next + ·)
  | .refresh p => if p < 1024 then (List.range 32).map (32 * p + ·) else []
  | .store .. => []

/-- Bit 0 of the word at an even address differs. -/
def flipBit (a : Nat) (s : State) : State := program a (leBytes 2 (nvStored s (a / 2) ^^^ 1).toNat) s

/-- R219, R249, R280: what the stored forme, case or calibration set of page `p` reads as, where its CRCs hold: the payload
with its GEN. -/
def pageStore (p : Nat) (s : State) : Option (List Byte) :=
  if 520 ≤ p ∧ p < 560 then (storedSlot (64 * (p - (p - 520) % 5)) 256 s).map fun x => x.2 ++ leBytes 4 x.1
  else if 560 ≤ p ∧ p < 584 then (storedSlot (64 * (p - (p - 560) % 3)) 132 s).map fun x => x.2 ++ leBytes 4 x.1
  else if 600 ≤ p ∧ p < 765 then
    let q := (p - 600) / 33
    match trailerOf q s with
    | some t => if t.isComplete || decide ((p - 600) % 33 = 32) then some (poolImage q s ++ leBytes 4 t.gen) else none
    | none => none
  else none

/-- The slots of the rings on a page of partition S (R376). -/
def pageSlots (p : Nat) : List (Fin 64 × Fin 16) :=
  if h : 768 ≤ p ∧ p < 1024 then
    (List.finRange 4).map fun i => (⟨(p - 768) / 4, by omega⟩, ⟨4 * ((p - 768) % 4) + i.val, by omega⟩)
  else []

/-- R380: a torn slot fails its CRC: where the free values would make one that reads as valid, its CRC word differs in a bit. -/
def spoilRing (r : Fin 64) (j : Fin 16) (s : State) : State :=
  if (readSlot r j s).isSome then flipBit (slotAddr r j + 14) s else s

/-- R380, R400, R219, R249, R280: what a torn operation leaves fails its CRC: a ring slot, the page of a legal store, and
whatever a torn refresh has changed of either. -/
def spoilSlot (op : ArrayOp) (before after : State) : State :=
  match op with
  | .hostRing r _ | .sealRing r _ _ =>
    match nextSlot r before with
    | some (j, _) => spoilRing r j after
    | none => after
  | .legalPage p _ => if (pageStore p after).isSome then flipBit (64 * p) after else after
  | .refresh p =>
    let s1 := forAll (pageSlots p)
      (fun x t => if readSlot x.1 x.2 t = readSlot x.1 x.2 before then t else spoilRing x.1 x.2 t) after
    if (pageStore p s1).isSome && decide (pageStore p s1 ≠ pageStore p before) then flipBit (64 * p) s1 else s1
  | _ => after

/-- R84: the operation in progress is torn. -/
def tearOp (s : State) : State :=
  match s.nv.running with
  | none => s
  | some (.store _ bankB image number) =>
    let b : Bank := { image := image, number := number, crc := 0, torn := true }
    { s with
      sh := if bankB then { s.sh with bankB := b } else { s.sh with bankA := b }
      nv := { s.nv with running := none }, pwr := { s.pwr with pfTxn := false } }
  | some op =>
    let s1 := spoilSlot op s (forAll (opWords op s) tearWord s)
    { s1 with nv := { s1.nv with running := none } }

/-- R84, R411: VCAP falls below 2.3 V during the power-fail sequence: what runs is torn; the queue and code 02h are lost. -/
def execVcapHoldUpLost (s : State) : Host.Outcome State Fault Refusal :=
  if s.pwr.phase = .powerFail then complete (bkpCheck (enterLockup (tearOp s))) else complete s

/-! ## Reset release (Sequence 03-1, step 5) -/

/-- R298: a NODE with EN = 1 enters SEARCH; a HUB starts the link at its first origin (R302). -/
def startLink (s : State) : State := if s.gl.en && isNode s then enterSearch s else s

/-- The fields that the release itself sets: start-up, straps, clocks of the role, link key (R74, R284, R286). -/
def releaseFields (env : ReleaseEnv) (s : State) : State :=
  { s with
    pwr := { s.pwr with
      phase := .startup, pfiOk := env.pfiOk, avddOk := env.avddOk, role := env.role, busmode := env.busmode
      releaseEvents := [] }
    port := { s.port with test := env.test }
    sys := { s.sys with lnklk := !env.role }
    gl := { s.gl with key := s.key.link, zkey := !bitOf s.key.pres 1 } }

/-- R421: the patch image is evaluated. -/
def loadPatch (s : State) : State :=
  let p := evalPatch s
  { s with sys := { s.sys with patch := p.1, patchLog := p.2 } }

/-- The records and restores of step 5, in the order of R421, R181, R199, R262, R259, R231, R285, R364. -/
def restoreAll (s : State) : State :=
  let s1 := loadFrontEnd (loadPatch s)
  let s2 := forAll channels restoreForme s1
  let s3 := forAll channels restoreCal (loadCalWords s2)
  let s4 := forAll channels recompute (forAll channels restoreCase s3)
  loadProtection (loadGalley s4)

/-- R34: event 00Ah occurs at release if a pending flag is still set. -/
def releaseSignal (s : State) : State :=
  if s.bkp.flags.isEmpty then { s with bkp := { s.bkp with fullSignal := false } }
  else raise 0xA { s with bkp := { s.bkp with fullSignal := false } }

/-- Sequence 03-1, step 5; R451: VDD below its release point raises PFAIL at release; R453: TEST high opens the port. -/
def release (env : ReleaseEnv) (s : State) : State :=
  let s1 := startLink (restoreAll (releaseFields env s))
  let s2 := releaseSignal (forAll s.pwr.releaseEvents raise s1)
  let s3 := when s2.port.test (fun t => requestPort t.port.ir true t) s2
  if env.vddOk then s3 else powerFail s3

def execResetRelease (env : ReleaseEnv) (s : State) : Host.Outcome State Fault Refusal :=
  if s.pwr.phase = .reset then complete (release env s) else complete s

/-! ## Start-up (Sequence 03-1, steps 6 to 10) -/

/-- R79, R46: one buffered entry is committed and leaves the buffer, or is counted with its event where R46 or Table 12-9
forbids it; one that waits for the reserve stays in the buffer until the interrupted session is closed. -/
def migrateEntry (e : Entry) (s : State) : State :=
  let r := commitDirect e s
  match r.2 with
  | .takes => { r.1 with bkp := { r.1.bkp with migDone := r.1.bkp.migDone + 1 } }
  | .waits => { r.1 with bkp := { r.1.bkp with buffer := r.1.bkp.buffer ++ [e] } }
  | f => notWritten f { r.1 with bkp := { r.1.bkp with migLost := r.1.bkp.migLost + 1 } }

/-- An entry of start-up; where it is not written event 36Fh or 3B0h occurs (R46, R386). -/
def commitOrDrop (e : Entry) (s : State) : State :=
  let r := commitDirect e s
  notWritten r.2 r.1

/-- R79: the first `n` entries of the buffer are migrated; those that wait stay, ahead of the rest. -/
def migrateEntries (n : Nat) (s : State) : State :=
  let rest := s.bkp.buffer.drop n
  let s1 := forAll (s.bkp.buffer.take n) migrateEntry { s with bkp := { s.bkp with buffer := [] } }
  { s1 with bkp := { s1.bkp with buffer := s1.bkp.buffer ++ rest } }

/-- R79: every entry of the buffer waits for the reserve. -/
def onlyWaiting (s : State) : Bool :=
  s.bkp.buffer.all fun e => decide (fate (sessionOpen s) e.code (skipMarker s.imp.next) = .waits)

/-- Table 03-5: code 03h, where anything was committed or counted; its commit clears the counts and raises 3A2h (R389). -/
def migrationEntry (s : State) : State :=
  let lost := s.bkp.lost + s.bkp.migLost
  if s.bkp.migDone = 0 ∧ lost = 0 then s
  else
    let data := BitVec.ofNat 32 (min 0xFFFF lost * 65536 + min 0xFFFF s.bkp.migDone)
    let r := commitDirect (nowEntry 0x03 data s) s
    if r.2 = .takes then raise 0x3A2 { r.1 with bkp := { r.1.bkp with migDone := 0, migLost := 0, lost := 0 } }
    else notWritten r.2 r.1

/-- R422: code 61h or 62h, where its DATA differs from the last one's. -/
def patchEntry (s : State) : State :=
  match s.sys.patchLog with
  | none => s
  | some (code, data) =>
    if s.imp.lastPatch.map (·.2) = some data then s else commitOrDrop (nowEntry code data s) s

/-- Table 03-5: code 01h. -/
def powerUpEntry (s : State) : State :=
  let data := BitVec.ofNat 32
    (s.pwr.cause.toNat * 2 ^ 24 + 2 * flag (!s.bkp.valid) + flag s.pwr.twinBad)
  let s1 := commitOrDrop (nowEntry 0x01 data s) s
  { s1 with pwr := { s1.pwr with twinBad := false, migrated := true } }

/-- R79: step 6; the first `n` entries are handled, and when none is left but those that wait for the reserve (R46) the entries
that end the step follow. -/
def migrate (n : Nat) (s : State) : State :=
  let s1 := migrateEntries n s
  if onlyWaiting s1 then powerUpEntry (patchEntry (migrationEntry s1)) else s1

def execBackupMigration (n : Nat) (s : State) : Host.Outcome State Fault Refusal :=
  complete (when (decide (s.pwr.phase = .startup) && !s.pwr.migrated && s.nv.running.isNone) (migrate n) s)

/-- R45: step 7: the legal event counter is the greater of slug ring 0 and the last code 23h; the ring is rewritten where
the entry is ahead. -/
def recoverCounter (s : State) : State :=
  let ring := (ringValue 0 s).setWidth 32
  let entry := s.imp.last23.getD 0
  let s1 := if ring.toNat < entry.toNat then writeRing 0 (entry.setWidth 64) s else s
  { s1 with sl := { s1.sl with counter := if ring.toNat < entry.toNat then entry else ring } }

/-- R43: after a loss of the RTC a record with FAILS ≥ 5 gets LKSTART = 0. -/
def recoverLockout (s : State) : State :=
  let r := sealRecord s
  let s1 := { s with pwr := { s.pwr with rtcLost := false } }
  if s.pwr.rtcLost ∧ 5 ≤ r.fails.toNat then writeRing 1 ({ r with lkstart := 0 } : SealRecord).value s1 else s1

/-- R46, R79: entries that waited for the reserve are migrated once the interrupted session is closed; the code 03h that follows
them covers the whole migration. -/
def finishMigration (s : State) : State :=
  if s.bkp.buffer.isEmpty then s else migrationEntry (migrateEntries s.bkp.buffer.length s)

/-- R51: step 9: an interrupted session is closed (steps 3 to 6 of Sequence 02-2), else the digest is compared. Where R378
refuses the seal unit's write, the closing goes no further. -/
def answerDigest (s : State) : State :=
  let s1 := readLegal { s with sl := { s.sl with digest := legalDigest s } }
  if sessionOpen s1 then
    let s2 := commitOrDrop (nowEntry 0x11 (digestData s1) s1) s1
    let s3 := writeRing 1 (closedRecord s2) s2
    if (nextSlot 1 s2).isNone then s3
    else finishMigration (raise 0x13 { s3 with sl := { s3.sl with digerr := false }, key := clearVoid s3.key })
  else
    match s1.imp.last11 with
    | some d => if d = digestData s1 then s1 else raise 0x15 { s1 with sl := { s1.sl with digerr := true } }
    | none => s1

/-- R407: the legal digest takes the SHA-256 core once a signed close that it has taken up has ended. -/
def digestFree (s : State) : Bool := !(s.sh.busy && s.sh.started)

/-- Sequence 03-1, steps 7 to 9 are due: the log entries of step 6 and every commit that the seal unit has asked for have
ended. -/
def powerupDigestDue (s : State) : Bool :=
  decide (s.pwr.phase = .startup) && s.pwr.migrated && !s.pwr.digested && s.nv.running.isNone && s.nv.sealQueue.isEmpty

/-- R48, R362, R412: step 2 of Sequence 02-2 has ended: no array operation runs, no host operation waits, and no store or key
command is in progress. -/
def closingDue (s : State) : Bool :=
  decide (s.sl.closing = .waiting) && nvIdle s && s.nv.sealQueue.isEmpty && s.nv.legal.isEmpty && s.key.op.isNone

/-- R407: a legal digest is due on the SHA-256 core. -/
def digestDue (s : State) : Bool := closingDue s || powerupDigestDue s

def execPowerupDigest (s : State) : Host.Outcome State Fault Refusal :=
  complete (when (powerupDigestDue s && digestFree s)
    (fun t =>
      let t1 := answerDigest (recoverLockout (recoverCounter t))
      { t1 with pwr := { t1.pwr with digested := true } }) s)

/-- R77, R78: step 10: RUN, event 000h, and the starts that were held. Start-up is no mode (03), and whether its end counts as a
mode change for the column of that name is open: here it does, so injection is disarmed and START and GO read 0 (DESIGN CHOICE,
log entry 58). -/
def startupDone (s : State) : State :=
  let s1 := raise 0 (enterRun s)
  let m := s1.fe.heldStarts
  { s1 with fe := { s1.fe with heldStarts := 0, starts := if m = 0 then s1.fe.starts else s1.fe.starts ++ [m] } }

def execStartupComplete (s : State) : Host.Outcome State Fault Refusal :=
  complete (when (decide (s.pwr.phase = .startup) && s.pwr.migrated && s.pwr.digested) startupDone s)

/-! ## Supplies -/

/-- R81, R87: VBAT is lost; the BKP domain resets where VDD does not supply it. -/
def execVbatLoss (s : State) : Host.Outcome State Fault Refusal :=
  complete (bkpCheck { s with pwr := { s.pwr with vbat := false } })

/-- R65: the BKP supply switches to VDD as VDD rises through 2.75 V, and back to VBAT as VDD falls through 2.65 V, which it
does only where SYS no longer runs. Without a cell the domain then has no supply (R81, R434). -/
def execBkpSupplySwitch (sw : SupplySwitch) (s : State) : Host.Outcome State Fault Refusal :=
  match s.pwr.phase with
  | .lockup | .powerFail =>
    complete (bkpCheck { s with pwr := { s.pwr with bkpOnVdd := sw.toVdd, vdd := sw.toVdd, vbat := sw.vbat } })
  | _ => complete s

/-- R428: VDDIO is lost; no PFAIL. The bus is ignored while it is absent, and its pins, LIVE and those of the Galley are not
powered: the frame that is being sent is lost. -/
def execVddioLoss (s : State) : Host.Outcome State Fault Refusal :=
  complete { s with
    pwr := { s.pwr with vddio := false }, sys := { s.sys with live := false }, bus := { s.bus with driven := false }
    gl := { s.gl with tx := none } }

/-- R428: VDDIO is back. -/
def execVddioReturn (s : State) : Host.Outcome State Fault Refusal :=
  complete { s with pwr := { s.pwr with vddio := true } }

/-! ## Heartbeat and LIVE -/

/-- R89: a write of HBEAT. -/
def heartbeat (v : Word) (s : State) : State :=
  if !s.sys.hbSeen || decide (v = ~~~s.sys.hbeat) then
    { s with sys := { s.sys with hbeat := v, hbSeen := true, hbFresh := true } }
  else raise 1 s

def execHbeatWrite (v : Word) (s : State) : Host.Outcome State Fault Refusal :=
  complete (onBus (heartbeat v) s)

/-- R89: T_HB elapses after the last accepted heartbeat. -/
def execHeartbeatStale (s : State) : Host.Outcome State Fault Refusal :=
  complete (when (sysLive s && s.sys.hbFresh)
    (fun t => raise 2 { t with sys := { t.sys with hbFresh := false } }) s)

/-- R91, R101: a time-base boundary of LIVE. Without VDDIO its driver is unpowered and makes no edge (R428). -/
def liveBoundary (s : State) : State :=
  if s.sys.liveHeld && liveAll s then
    if s.sys.liveOn then { s with sys := { s.sys with live := s.pwr.vddio && !s.sys.live } }
    else raise 4 { s with sys := { s.sys with liveOn := true, live := s.pwr.vddio } }
  else s

def execLiveTimebaseBoundary (s : State) : Host.Outcome State Fault Refusal :=
  complete (when (sysLive s) liveBoundary s)

end Sys2Proof.Machine
end

