-- ==== Sys2Proof/Machine/Stages.lean ====
section
/-! DEFINITION. Machine/Stages.lean: what one stage of a forme does to one input, on the stream scale of R192 (2^38 is
+FS), and the arithmetic of the CAL stage (R266), the tone detector (R242) and Kern's correction (R267). -/

namespace Sys2Proof.Machine

/-! ## Stream arithmetic (R192) -/

/-- Saturation at the 40-bit limits. -/
def sat40 (v : Int) : Int := clampInt (-(2 ^ 39)) (2 ^ 39 - 1) v

/-- The value saturates. -/
def over40 (v : Int) : Bool := decide (sat40 v ≠ v)

/-- R192: the 32-bit value before its saturation. -/
def narrow (v : Int) : Int := roundAway v 128

/-- Saturation to −2^31 to 2^31 − 1. -/
def sat32 (v : Int) : Int := clampInt (-(2 ^ 31)) (2 ^ 31 - 1) v

/-- The stream is at or beyond ±FS. -/
def reachesFs (v : Int) : Bool := decide (2 ^ 38 ≤ v.natAbs)

/-! ## Cosine and sine -/

/-- round(2π × 2^58). -/
def twoPi58 : Int := 1811004864519280711

/-- The terms of the power series of the sine (`k` = 1) or cosine (`k` = 0) of `a` (scale 2^58), summed from term `t`. -/
def trigSeries : Nat → Nat → Int → Int → Int
  | 0, _, _, _ => 0
  | fuel + 1, k, a2, t => t + trigSeries fuel (k + 2) a2 (-(t * a2).fdiv (2 ^ 58) / ((k + 1) * (k + 2) : Nat))

/-- Cosine and sine of a phase in the first eighth, given in 2^-32 turn (scale 2^58). -/
def cosSinSmall (w : Nat) : Int × Int :=
  let a := (w * twoPi58).fdiv (2 ^ 32)
  let a2 := (a * a).fdiv (2 ^ 58)
  (trigSeries 14 0 a2 (2 ^ 58), trigSeries 14 1 a2 a)

/-- Cosine and sine in the first quarter. -/
def cosSinQuarter (w : Nat) : Int × Int :=
  if w ≤ 2 ^ 29 then cosSinSmall w
  else
    let r := cosSinSmall (2 ^ 30 - w)
    (r.2, r.1)

/-- Cosine and sine of a phase of `w` in 2^-32 turn (scale 2^58). -/
def cosSin (w : Nat) : Int × Int :=
  let q := w / 2 ^ 30 % 4
  let r := cosSinQuarter (w % 2 ^ 30)
  match q with
  | 0 => r
  | 1 => (-r.2, r.1)
  | 2 => (-r.1, -r.2)
  | _ => (r.2, -r.1)

/-! ## Stages -/

/-- A fresh stage. -/
def StageState.fresh : StageState := { hist := [], taken := 0, sect := [] }

/-- One input through a chain of integrators: the new integrators and the last one's value. -/
def integrate : Int → List Int → List Int × Int
  | x, [] => ([], x)
  | x, i :: rest =>
    let r := integrate (i + x) rest
    ((i + x) :: r.1, r.2)

/-- One value through a chain of combs: the new delays and the result. -/
def comb : Int → List Int → List Int × Int
  | x, [] => ([], x)
  | x, d :: rest =>
    let r := comb (x - d) rest
    (x :: r.1, r.2)

/-- R192: the CIC normalisation, 1 / RATIO^ORDER to within 2^-40 relative; the error is a free value (log entry 9). -/
def cicScale (order ratio : Nat) (sum : Int) : Int :=
  let e := Config.cicError order ratio
  let q := e.2 + 1
  let p := clampInt (-q) q e.1
  roundAway (sum * (2 ^ 40 * q + p)) (ratio ^ order * (2 ^ 40 * q))

/-- The half of a half-band filter beside its middle tap: the given taps at odd distances, 0 between them. -/
def hbfHalf : List Int → List Int
  | [] => []
  | [h] => [h]
  | h :: rest => h :: 0 :: hbfHalf rest

/-- R192: the 47 taps of a half-band filter from its twelve taps at odd distances, in units of 2^-bits; the middle one is
1/2. -/
def hbfOf (odd : List Int) (bits : Nat) : List Int := (hbfHalf odd).reverse ++ [2 ^ (bits - 1)] ++ hbfHalf odd

/-- Two polynomials of one variable, lowest power first, added. -/
def polyAdd : List Int → List Int → List Int
  | a :: as, b :: bs => (a + b) :: polyAdd as bs
  | [], bs => bs
  | as, [] => as

/-- A polynomial times `a + b·t`. -/
def polyTimes (a b : Int) (p : List Int) : List Int := polyAdd (p.map (a * ·)) (0 :: p.map (b * ·))

/-- The product of the `k` numbers from `n` down. -/
def falling : Nat → Nat → Nat
  | _, 0 => 1
  | n, k + 1 => n * falling (n - 1) k

/-- The Bernstein coefficients over 0 ≤ t ≤ 1 of a polynomial of degree at most `n`, all times `n`!. -/
def bernstein (n : Nat) (p : List Int) : List Int :=
  (List.range (n + 1)).map fun i =>
    ((List.range (i + 1)).map fun k => (falling i k * falling (n - k) (n - k) : Nat) * p.getD k 0).sum

/-- The Bernstein coefficients over the two halves of the range, times 2 to the degree: the sides of the triangle of sums. -/
def halves : Nat → List Int → List Int × List Int
  | 0, b => (b, b)
  | n + 1, b =>
    let r := halves n (List.zipWith (· + ·) b (b.drop 1))
    ((2 ^ (n + 1) * b.headD 0) :: r.1, r.2 ++ [2 ^ (n + 1) * b.getLastD 0])

/-- Whether the polynomial of these Bernstein coefficients, of degree `n`, is nowhere negative over its range, found by
halving the range at most `depth` times. -/
def nowhereNegative (n : Nat) : Nat → List Int → Bool
  | 0, b => b.all (decide <| 0 ≤ ·)
  | depth + 1, b =>
    b.all (decide <| 0 ≤ ·) ||
      decide (0 ≤ b.headD 0 ∧ 0 ≤ b.getLastD 0) && nowhereNegative n depth (halves n b).1 &&
        nowhereNegative n depth (halves n b).2

/-- The cosine of 0.2 turn, rounded up (scale 2^40). -/
def hbfEdge : Int := 339767778496

/-- The response of the odd taps, 2·Σ h·cos((2m + 1)ω), as a polynomial of degree 23 in t, where cos ω goes from the edge at
t = 0 to 1 at t = 1 (scale 2^(bits + 920)); the sums run up the Chebyshev polynomials of odd degree. -/
def hbfResponse (odd : List Int) : List Int :=
  let times := polyTimes hbfEdge (2 ^ 40 - hbfEdge)
  let next := fun (c : List Int × List Int) =>
    (c.2, polyAdd ((times c.2).map (2 * ·)) (c.1.map (-(2 ^ 80) * ·)))
  ((List.range 12).foldl (fun (r : List Int × (List Int × List Int)) m =>
    (polyAdd r.1 (r.2.2.map (2 * odd.getD m 0 * 2 ^ (40 * (22 - 2 * m)) * ·)), next (next r.2)))
    ([], ([1], times [1]))).1

/-- R192: the form and the limits of the filter: twelve taps, DC gain 1, ±0.002 dB from 0 to 0.2 of the input rate, over the
whole band (log entry 8). The gains at f and at 0.5 - f sum to 1 in a half-band filter, so that it then attenuates by more
than 70 dB from 0.3 on. -/
def hbfMeets (odd : List Int) (bits : Nat) : Bool :=
  let p := (hbfResponse odd).map (10 ^ 13 * ·)
  let half : Int := 10 ^ 13 * 2 ^ (bits - 1) * 2 ^ 920
  let above : Int := 2302850209 * 2 ^ bits * 2 ^ 920
  let below : Int := 2302320019 * 2 ^ bits * 2 ^ 920
  decide (odd.length = 12 ∧ 2 * odd.sum = 2 ^ (bits - 1)) &&
  nowhereNegative 23 16 (bernstein 23 (polyAdd [half + above] (p.map (-1 * ·)))) &&
  nowhereNegative 23 16 (bernstein 23 (polyAdd [below - half] p))

/-- Taps that meet R192, in units of 2^-24 (log entry 8). -/
def hbfKnown : List Int :=
  [5307916, -1684075, 914550, -561073, 354491, -221702, 133916, -76494, 40331, -18944, 7419, -2031]

/-- R192: the taps of the half-band filter and their scale: a free value within the limits of the rule, else the known ones. -/
def hbfFilter : List Int × Nat :=
  let bits := Config.hbfBits + 1
  if hbfMeets Config.hbfTaps bits then (hbfOf Config.hbfTaps bits, bits) else (hbfOf hbfKnown 24, 24)

/-- Sum of products of two lists. -/
def dot : List Int → List Int → Int
  | a :: as, b :: bs => a * b + dot as bs
  | _, _ => 0

/-- One IIR section on the guarded grid (R193, R234): its coefficients as stored, Q2.30. -/
def iirSection (b0 b1 b2 a1 a2 : Int) (x : Int) (h : Int × Int × Int × Int) : Int × (Int × Int × Int × Int) :=
  let y := roundAway (b0 * x + b1 * h.1 + b2 * h.2.1 - a1 * h.2.2.1 - a2 * h.2.2.2) (2 ^ 30)
  (y, (x, h.1, y, h.2.2.1))

/-- The sections of an IIR stage one after another. -/
def iirSections (coef : Nat → Int) : Nat → Int → List (Int × Int × Int × Int) → Int × List (Int × Int × Int × Int)
  | _, x, [] => (x, [])
  | c, x, h :: rest =>
    let r := iirSection (coef c) (coef (c + 1)) (coef (c + 2)) (coef (c + 3)) (coef (c + 4)) x h
    let t := iirSections coef (c + 5) r.1 rest
    (t.1, r.2 :: t.2)

/-- R266: the CAL stage on one input. -/
def calStage (v : CalValues) (x : Int) : Int :=
  let d := x - v.z * 128
  let q := d + roundAway (v.l * d * d) (2 ^ 69)
  roundAway (v.s * q) (2 ^ 24)

/-- What one stage answers to one input: its new state, its output before saturation, if it forms one. -/
def runStage (coef : Nat → Int) (cal : Option CalValues) (op : StageOp) (st : StageState) (x : Int) :
    StageState × Option Int :=
  let n := st.taken + 1
  match op with
  | .cic order ratio =>
    let h := if st.hist.isEmpty then List.replicate (2 * order) 0 else st.hist
    let i := integrate x (h.take order)
    if n % ratio = 0 then
      let c := comb i.2 (h.drop order)
      ({ st with hist := i.1 ++ c.1, taken := n }, some (cicScale order ratio c.2))
    else ({ st with hist := i.1 ++ h.drop order, taken := n }, none)
  | .hbf =>
    let h := x :: st.hist
    ({ st with hist := h.take 46, taken := n },
      if n % 2 = 0 then some (roundAway (dot hbfFilter.1 h) (2 ^ hbfFilter.2)) else none)
  | .fir dec ntaps cbase =>
    let h := x :: st.hist
    ({ st with hist := h.take (ntaps - 1), taken := n },
      if n % dec = 0 then
        some (roundAway (dot ((List.range ntaps).map fun i => coef (cbase + i)) h) (2 ^ 31))
      else none)
  | .iir sect cbase _ =>
    let g : Nat := 2 ^ Config.iirGuardBits
    let h := if st.sect.isEmpty then List.replicate sect (0, 0, 0, 0) else st.sect
    let r := iirSections coef cbase (x * g) h
    ({ st with sect := r.2, taken := n }, some (roundAway r.1 g))
  | .cal => ({ st with taken := n }, some (match cal with | some v => calStage v x | none => x))
  | _ => ({ st with taken := n }, some x)

/-- What one sample brings about along a forme. -/
structure Flow where
  /-- some stage saturated -/
  sat : Bool
  /-- the stream entering CAL reached ±FS; a CAL has been passed; one had been passed at the TAP -/
  reach : Bool
  calSeen : Bool
  tapCal : Bool
  /-- streams at TAP, TONE, MOTION and END -/
  tap : Option Int
  tone : Option Int
  motion : Option Int
  out : Option Int
deriving DecidableEq, Repr

def Flow.start : Flow :=
  { sat := false, reach := false, calSeen := false, tapCal := false, tap := none, tone := none, motion := none
    out := none }

/-- One sample along the stages of a forme (07, Model; R191): each stage in turn, while outputs are formed. -/
def runStages (coef : Nat → Int) (cal : Option CalValues) :
    List StageOp → List StageState → Int → Flow → List StageState × Flow
  | [], _, x, f => ([], { f with out := some x })
  | op :: ops, sts, x, f =>
    let st := sts.headD StageState.fresh
    let r := runStage coef cal op st x
    match r.2 with
    | none => (r.1 :: sts.drop 1, f)
    | some y =>
      let f1 := { f with sat := f.sat || over40 y }
      let f2 := match op with
        | .cal => { f1 with reach := f1.reach || reachesFs x, calSeen := true }
        | .tap => { f1 with tap := some x, tapCal := f1.calSeen }
        | .tone => { f1 with tone := some x }
        | .motion .. => { f1 with motion := some x }
        | _ => f1
      let t := runStages coef cal ops (sts.drop 1) (sat40 y) f2
      (r.1 :: t.1, t.2)

/-! ## Kern (R267) -/

/-- R267: the sum of c_e × u_e × W on the stream scale: W is 2.5 FS / 16, so a coefficient counts 20 times its value. -/
def kernCorrection (c : Vector W32 16) (u : BitVec 16) : Int :=
  (List.finRange 16).foldl (fun a e => if u.getLsbD e.val then a + 20 * (c.get e).toInt else a) 0

/-! ## Tone (R242) -/

/-- The integer square root, bit by bit: `fuel` bits below the ones found. -/
def sqrtBits : Nat → Nat → Nat → Nat
  | 0, r, _ => r
  | fuel + 1, r, v =>
    let t := r + 2 ^ fuel
    sqrtBits fuel (if t * t ≤ v then t else r) v

/-- The phase of (re, im) in 2^-16 turn, found by the rotation that brings it onto the positive real axis: the nearest of
the 65,536 phases, bit by bit from `p`. -/
def phaseSearch (re im : Int) : Nat → Nat → Nat
  | 0, p => p
  | fuel + 1, p =>
    let c := cosSin ((p + 2 ^ fuel) * 2 ^ 15)
    -- the angle is at least p + 2^fuel where the cross product of that direction with (re, im) is not negative
    phaseSearch re im fuel (if 0 ≤ c.1 * im - c.2 * re then p + 2 ^ fuel else p)

/-- R242: round(arg × 65,536 / 2π) mod 65,536, through half units of the upper or lower half turn. -/
def phaseOf (re im : Int) : Nat :=
  let flip := decide (im < 0) || (decide (im = 0) && decide (re < 0))
  let p := if flip then phaseSearch (-re) (-im) 16 0 else phaseSearch re im 16 0
  ((p + (if flip then 65536 else 0) + 1) / 2) % 65536

/-- One sample of a block: x × e^(−j 2π PINC n / 2^32) (scale 2^58). -/
def toneTerm (pinc : W32) (n : Nat) (x : Int) : Int × Int :=
  let c := cosSin (pinc.toNat * n % 2 ^ 32)
  (x * c.1, -(x * c.2))

/-- R242: round(2 |X| / N), saturated. -/
def toneMagnitude (b : ToneBlock) : Nat :=
  let v := 4 * (b.re * b.re + b.im * b.im).toNat
  min (2 ^ 32 - 1) ((2 * sqrtBits 110 0 v + b.n * 2 ^ 58) / (2 * b.n * 2 ^ 58))

end Sys2Proof.Machine
end

