-- ==== Sys2Proof/Machine/Engine.lean ====
section
/-! DEFINITION. Machine/Engine.lean: the operations of the sample path: interpolation, restarts, stops and halts, the fade,
the tone block, outputs and their admission, and one turn of the engine (chapters 06 to 09). -/

namespace Sys2Proof.Machine

/-! ## Interpolation (R264, R265) -/

/-- Field `f` of point `p` (1 ZERO, 2 SPAN, 3 LIN), in its own format. -/
def fieldAt (set : Vector W32 33) (p f : Nat) : Int :=
  if f = 2 then (calField set p f).toNat else (calField set p f).toInt

/-- The largest index up to `n` whose T is at most `t`. -/
def calIndex (set : Vector W32 33) (t : Int) : Nat → Nat
  | 0 => 0
  | n + 1 => if calT set (n + 1) ≤ t then n + 1 else calIndex set t n

/-- R264: one field at a reading. -/
def interpField (set : Vector W32 33) (t : Int) (f : Nat) : Int :=
  let n := calPoints set
  if n ≤ 1 then fieldAt set 0 f
  else if t < calT set 0 then fieldAt set 0 f
  else if calT set (n - 1) < t then fieldAt set (n - 1) f
  else
    let i := calIndex set t (n - 2)
    let v := fieldAt set i f
    v + roundAway ((fieldAt set (i + 1) f - v) * (t - calT set i)) (calT set (i + 1) - calT set i).toNat

/-- R264: the interpolated values at a reading. -/
def interpolate (set : Vector W32 33) (t : Int) : CalValues :=
  { z := interpField set t 1, s := interpField set t 2, l := interpField set t 3 }

/-- R264: the clamp detectors of a channel at a reading. -/
def clampCheck (k : Chan) (t : Int) (s : State) : State :=
  let set := (s.cal.ch.get k).working
  let n := calPoints set
  let s1 := detect (calE k 4) (decide (1 < n ∧ t < calT set 0)) s
  detect (calE k 5) (decide (1 < n ∧ calT set (n - 1) < t)) s1

/-- R260, R263, R265: at step 1 of a start the working set is latched and its values are computed. -/
def latchCal (k : Chan) (s : State) : State :=
  let c := s.cal.ch.get k
  let set := c.stored.getD identitySet
  let r := readingOf set s
  let t := match r with
    | some w => w.toInt
    | none => calT set 0
  let s1 := modCal k (fun x => { x with
    working := set, cur := interpolate set t, pend := none, noReading := r.isNone }) s
  let s2 := when c.stored.isNone (raise (calE k 3)) s1
  let s3 := when r.isNone (raise (calE k 6)) s2
  if r.isSome then clampCheck k t s3 else s3

/-! ## Tone block (R244) -/

/-- The block in progress is abandoned: event 156h. -/
def abandonBlock (s : State) : State :=
  match s.tone.block with
  | some _ => raise 0x156 { s with tone := { s.tone with block := none } }
  | none => s

/-- R244: a stream restart of the selected channel. -/
def toneRestart (k : Chan) (s : State) : State :=
  if s.tone.busy && decide (s.tone.useCh.toNat = k.val) then abandonBlock s else s

/-- R244: a stop or a forme load of the selected channel also clears BUSY. -/
def toneEnd (k : Chan) (s : State) : State :=
  if s.tone.busy && decide (s.tone.useCh.toNat = k.val) then
    let s1 := abandonBlock s
    { s1 with tone := { s1.tone with busy := false } }
  else s

/-! ## Restarts, stops and halts -/

/-- R203, R204: numbering restarts at 1 and stage state is cleared; STABLE is 0. -/
def restartForme (k : Chan) (s : State) : State :=
  let was := (s.fm.ch.get k).stable
  let s1 := modFm k (fun c => { c with
    stages := [], consumed := 0, outs := 0, taps := 0, ref := 0, n := 0, stable := false, ovrFinal := false
    ovrTap := false }) s
  toneRestart k (when was (raise (fmB k 4)) s1)

/-- R232, R247: the case that a fade leads to becomes active: event 140h + 4k, delays recomputed. -/
def finishFade (k : Chan) (s : State) : State :=
  match (s.cs.ch.get k).fade with
  | none => s
  | some f =>
    raise (csE k 0) (recompute k (modCs k (fun c => { c with act := f.tgt, fade := none }) s))

/-- R178: the phase generator becomes idle when the last running channel stops. Where another channel is STARTING then, R178
does not say; the generator goes on until no channel is STARTING or RUNNING (DESIGN CHOICE, log entry 24). -/
def idleGenerator (s : State) : State :=
  if channels.all (fun k => atRest k s) then { s with fe := { s.fe with gen := false, phase := 0 } } else s

/-- R178, R247, R244: what every end of a run does: drivers off, stage state and partial outputs discarded, a fade
completed, a tone block abandoned. -/
def endRun (st : ChanState) (k : Chan) (s : State) : State :=
  let s1 := modFe k (fun c => { c with
    state := st, startBit := false, drv := false, ilim := false, waitE := false, settle := 0, modReset := none }) s
  let s2 := toneEnd k (finishFade k (restartForme k s1))
  idleGenerator (modFm k (fun c => { c with haveOut := false, age := 0 }) s2)

/-- R178: a stop of a STARTING or RUNNING channel: event B, 5. -/
def stopChannel (k : Chan) (s : State) : State :=
  if atRest k s then s else raise (feB k 5) (endRun .stopped k s)

/-- R175: drivers off, HALTED, event B, 8. -/
def haltChannel (k : Chan) (s : State) : State :=
  if atRest k s then s else raise (feB k 8) (endRun .halted k s)

/-- Table 06-8, A, 8: the fault of a channel that was starting or running, which halts. -/
def clockLost (k : Chan) (s : State) : State :=
  if atRest k s then s
  else haltChannel k (when (isLegal k s) (markLegal (feA k 8)) (raise (feA k 8) s))

/-! ## Outputs (R205 to R210) -/

/-- The coefficients that a channel reads now (R232): blended in a frame of a fade. -/
def coefNow (k : Chan) (s : State) : Nat → Int :=
  let c := s.cs.ch.get k
  let old := fun i => (cellRead 0 (activeCase c) i).toInt
  match c.fade with
  | some f =>
    if f.begun then
      let n := 2 ^ f.xflen
      let j := min n (f.frames + 1)
      fun i =>
        let o := old i
        o + roundAway (((cellRead 0 (caseOf c f.tgt) i).toInt - o) * j) n
    else old
  | none => old

/-- Table 07-7. -/
def tagWord (k : Chan) (unsettled xfade ovr void notSealed tap : Bool) (seq : BitVec 8) : Word :=
  packWord
    [(k.val, 14), (flag unsettled, 13), (flag xfade, 12), (flag ovr, 11), (flag void, 10), (flag notSealed, 9),
     (flag tap, 8), (seq.toNat, 0)]

/-- R210: a record is offered to the FIFO, which discards it where it is full, or shown so by an injection (R149). -/
def enqueue (k : Chan) (wanted : Bool) (r : Record) (s : State) : State :=
  if !wanted then s
  else if shows (fmB k 1) (decide (512 ≤ s.fm.fifo.length)) s then
    edge (fmB k 1) true { s with fm := { s.fm with ovf := true } }
  else
    let n := s.fm.fifo.length
    let mark := 8 * s.fm.wm.toNat
    let s1 := edge (fmB k 1) false { s with fm := { s.fm with fifo := s.fm.fifo ++ [r] } }
    if 0 < mark ∧ n < mark ∧ mark ≤ n + 1 then raise (fmB 0 5) s1 else s1

/-- A fade of the channel is in progress (CASEST.XF). -/
def fading (k : Chan) (s : State) : Bool :=
  match (s.cs.ch.get k).fade with
  | some f => f.begun
  | none => false

/-- A tap output (R206). `x` is the stream at the TAP, `ovr` what its frame has shown. Whether tap and final outputs are one
sequence for event 0D2h + 20h × k (consecutive outputs with OVR, R213) is open: here they are one (DESIGN CHOICE, log entry 58). -/
def tapOutput (k : Chan) (ops : List StageOp) (x : Int) (ovr : Bool) (s : State) : State :=
  let c := s.fm.ch.get k
  let v := narrow x
  let u := settleCount ((stagesAhead isTap ops).getD [])
  let o := ovr || decide (sat32 v ≠ v)
  let tag := tagWord k (decide (c.taps + 1 ≤ u)) (fading k s) o s.key.void (inMakeready s) true c.tapSeq
  let s1 := modFm k (fun c => { c with taps := c.taps + 1, tapSeq := c.tapSeq + 1, ovrTap := false }) s
  enqueue k (bitOf s.fm.tapen k.val) { value := BitVec.ofInt 32 (sat32 v), tag := tag } (detect (fmB k 2) o s1)

/-- R267: the sum of the coefficients stays within ±16 LSB: the device removes a mean beyond it. -/
def balanced (c : List Int) : List Int :=
  if c.sum.natAbs ≤ 16 then c else c.map fun x => clampInt (-(2 ^ 31)) (2 ^ 31 - 1) (x - roundAway c.sum 16)

/-- R270: the largest sum of coefficient moves, in LSB, that changes the transfer function by at most 0.25 ppm of FS at any
input, whichever elements it uses: 0.25 ppm × 16 / 2.5 of 2^31 (log entry 14). -/
def kernLimit : Nat := 3435

/-- R270: one application on a legal-class channel: every coefficient moves by the same fraction of its way, so that neither
the rises nor the falls add up to more than the limit; removing the mean may take 32 LSB of it. `want` is the step that the
device takes within that (log entry 14). -/
def kernMove (want : Nat) (a p : List Int) : List Int :=
  let d := List.zipWith (fun x y => y - x) a p
  let rise := (d.map Int.toNat).sum
  let fall := (d.map fun x => (-x).toNat).sum
  let way := max rise fall
  if way ≤ kernLimit - 32 then p
  else
    let go := max 1 (min want (kernLimit - 32))
    balanced (List.zipWith (fun x y => x + Int.tdiv (y * go) way) a d)

/-- R270: Kern's pending correction at an output boundary. -/
def kernBoundary (k : Chan) (s : State) : State :=
  let c := s.kern.ch.get k
  let s0 := if c.zeroNext then
      modKern k (fun x => { x with applied := Vector.replicate 16 0, zeroNext := false }) s
    else s
  let c0 := s0.kern.ch.get k
  let s1 :=
    match c0.pend with
    | none => s0
    | some p =>
      if s0.kern.frz then s0
      else if !isLegal k s0 then
        edge (calE k 10) true (modKern k (fun x => { x with applied := p, pend := none }) s0)
      else if (s0.fm.ch.get k).stable then
        let d := nextDraw s0
        let move := kernMove (Config.kernStep d.1) (c0.applied.toList.map (·.toInt)) (p.toList.map (·.toInt))
        let v := vecOf 16 0 (move.map (BitVec.ofInt 32))
        edge (calE k 10) true
          (modKern k (fun x => { x with applied := v, pend := if v = p then none else some p }) d.2)
      else s0
  forAll [8, 9, 10, 11, 12] (fun p => edge (calE k p) false) s1

/-- R232: a fade at a final output: it begins at its boundary b, then counts frames. -/
def fadeBoundary (k : Chan) (s : State) : State :=
  modCs k (fun c => { c with fade := c.fade.map fun f =>
    if f.begun then { f with frames := f.frames + 1 } else { f with begun := true } }) s

/-- A final output (R205, R207, R203): the record, the settled event, and what takes effect at the boundary. -/
def finalOutput (k : Chan) (ops : List StageOp) (x : Int) (ovr : Bool) (s : State) : State :=
  let c := s.fm.ch.get k
  let v := narrow x
  let u := finalSettle ops
  let unsettled := decide (c.outs + 1 ≤ u)
  let o := ovr || decide (sat32 v ≠ v)
  let tag := tagWord k unsettled (fading k s) o s.key.void (inMakeready s) false c.seq
  let s1 := modFm k (fun c => { c with
    outs := c.outs + 1, seq := c.seq + 1, ovrFinal := false, lastOvr := o, lastUnsettled := unsettled
    lastVoid := s.key.void, haveOut := true, age := 0 }) s
  let s2 := edge (fmB k 0) (decide (c.outs = u)) (detect (fmB k 2) o s1)
  let s3 := enqueue k (bitOf s.fm.chen k.val) { value := BitVec.ofInt 32 (sat32 v), tag := tag } s2
  let s4 := modCal k (fun x => { x with cur := x.pend.getD x.cur, pend := none }) s3
  fadeBoundary k (kernBoundary k s4)

/-- R204: the motion detector on one sample `x` of the stream at its position. An injection shows the channel at rest, or moved
(R149). -/
def motionSample (k : Chan) (ops : List StageOp) (x : Int) (s : State) : State :=
  match ops.find? isMotion with
  | some (.motion m bscale band) =>
    let c := s.fm.ch.get k
    let v := sat32 (narrow x)
    let ahead := (stagesAhead isMotion ops).getD []
    let j := c.consumed / decimation ahead
    let restart := decide (j ≤ settleCount ahead) || decide (2 ^ 31 ≤ (narrow x).natAbs) || injected (fmB k 4) s
    let within := decide ((v - c.ref).natAbs ≤ band * 2 ^ bscale)
    let n0 := if restart then 0 else if within then min (c.n + 1) 255 else 0
    let n := if injected (fmB k 3) s then max n0 (m - 1) else n0
    let stable := decide (m - 1 ≤ n) && !injected (fmB k 4) s
    let s1 := modFm k (fun c => { c with
      ref := if !restart && within then c.ref else v, n := n, stable := stable }) s
    edge (fmB k 4) (!stable && c.stable) (edge (fmB k 3) (stable && !c.stable) s1)
  | _ => s

/-- R421: what a patched engine forms: the streams come when ROM code forms them, with values that the spec does not give. -/
def patchFlow (d : Nat) (f : Flow) : Flow :=
  { f with
    sat := Config.patchFlag (2 * d), reach := Config.patchFlag (2 * d + 1)
    tap := f.tap.map fun _ => sat40 (Config.patchValue (4 * d))
    tone := f.tone.map fun _ => sat40 (Config.patchValue (4 * d + 1))
    motion := f.motion.map fun _ => sat40 (Config.patchValue (4 * d + 2))
    out := f.out.map fun _ => sat40 (Config.patchValue (4 * d + 3)) }

/-- A CAL stands ahead of the TAP. -/
def calAheadOfTap (ops : List StageOp) : Bool := ((stagesAhead isTap ops).getD []).any isCal

/-- R190 to R210: one sample of the delivered stream through the forme of a running channel; `over` is the overload
condition (R476). A RAW bit that is set makes CAL pass its stream (R209). The answer is the sample at the TONE point, if one
was formed. -/
def formeSample (k : Chan) (x : Int) (beyond : Bool) (s0 : State) : State × Option Int :=
  let d := nextDraw s0
  let s := if s0.sys.patch then d.2 else s0
  let c := s.fm.ch.get k
  let ops := formeOps c.active
  let cal := if bitOf s.fm.raw k.val then none else some (s.cal.ch.get k).cur
  let r := runStages (coefNow k s) cal ops c.stages (sat40 x) Flow.start
  let f := if s0.sys.patch then patchFlow d.1 r.2 else r.2
  let bad := beyond || f.sat || f.reach
  let badTap := beyond || f.sat || (f.reach && calAheadOfTap ops)
  let s1 := modFm k (fun c => { c with
    stages := r.1, consumed := c.consumed + 1, ovrFinal := c.ovrFinal || bad, ovrTap := c.ovrTap || badTap }) s
  let s2 := match f.motion with
    | some m => motionSample k ops m s1
    | none => s1
  let s3 := match f.tap with
    | some t => tapOutput k ops t ((s2.fm.ch.get k).ovrTap || (!f.tapCal && reachesFs t)) s2
    | none => s2
  let s4 := match f.out with
    | some o => finalOutput k ops o ((s3.fm.ch.get k).ovrFinal || (!f.calSeen && reachesFs o)) s3
    | none => s3
  (s4, f.tone)

/-! ## The front end in one mt (R171, R173, R476) -/

/-- Consecutive mt of a condition. -/
def countMt (cond : Bool) (n : Nat) : Nat := if cond then n + 1 else 0

/-- Table 06-8: a condition whose response is HALTED. -/
def detectHalt (k : Chan) (id : Nat) (cond : Bool) (s : State) : State :=
  let fires := cond || injected id s
  let s1 := detectFault k id cond s
  if fires then haltChannel k s1 else s1

/-- R173: the monitors that are evaluated every mt from E on. -/
def monitorChannel (k : Chan) (i : ChanInput) (avdd : Nat) (avddBad : Bool) (s : State) : State :=
  let c := s.fe.ch.get k
  let v := sensedUv s.fe.amp avdd i.bridge
  let limit := countMt i.atLimit c.limitMt
  let low := countMt (amplitudeLow v) c.lowMt
  let cm := countMt (i.cmOut && !c.shortNow) c.cmMt
  let overs := countMt (beyond120 c v i.input) c.overMt
  let dc := c.dcMt + 1
  let s1 := modFe k (fun x => { x with
    ilim := shows (feA k 0) i.atLimit s, limitMt := limit, lowMt := low, cmMt := cm, overMt := overs, dcMt := dc }) s
  let s2 := detectFault k (feA k 0) (decide (8 ≤ limit)) s1
  let s3 := detectFault k (feA k 6) avddBad s2
  let s4 := detectFault k (feB k 1) (decide (16 ≤ cm)) s3
  let s5 := when (injected (feB k 2) s) (setHeld (feB k 2) true) (detect (feB k 2) (decide (16 ≤ overs)) s4)
  let s6 := if isDc s && decide (dc % 1024 = 0) then
      detect (feA k 3) (leadExcess v i.bridge)
        (detectFault k (feA k 2) (senseOpen i.bridge) (detectFault k (feA k 1) (ampOutside s.fe.amp avdd v) s5))
    else s5
  detectHalt k (feA k 7) i.thermal (detectHalt k (feA k 5) (decide (8 ≤ low)) s6)

/-- R476: the overload of a channel in this mt: the state, whether the overload condition holds, and whether the forme restarts
after this sample. The whole reset is one occurrence, also where an injection began it. Whether the mt in which the overload
is found counts among the 32 mt of the reset is open: here the 32 mt follow it (DESIGN CHOICE, log entry 53). -/
def overloadStep (k : Chan) (i : ChanInput) (avdd : Nat) (s : State) : State × Bool × Bool :=
  let c := s.fe.ch.get k
  let beyond := beyondLinear c (sensedUv s.fe.amp avdd i.bridge) i.input
  match c.modReset with
  | some n =>
    let s1 := modFe k (fun c => { c with modReset := some (if beyond then 0 else min 32 (n + 1)) }) s
    (detectFault k (feB k 3) true s1, true, false)
  | none =>
    let cond := beyond || i.integrator
    let starts := cond || injected (feB k 3) s
    let s1 := detectFault k (feB k 3) cond s
    if starts then (setHeld (feB k 3) true (modFe k (fun c => { c with modReset := some 0 }) s1), true, true)
    else (s1, false, false)

/-- R268: Kern takes no sample of the channel. -/
def kernHeld (k : Chan) (s : State) : Bool :=
  let c := s.fe.ch.get k
  !bitOf s.kern.en k.val || bitOf s.ev.held (feB k 2) || c.modReset.isSome || c.gapBad

/-- R268: what a gap mt gives Kern: mt 4 to B − 1, in every 64th gap to B − 5. -/
def kernGapMt (k : Chan) (s : State) : Bool :=
  let c := s.fe.ch.get k
  let last := blankMt s - (if 0 < c.gaps ∧ c.gaps % 64 = 0 then 4 else 0)
  inGap s && decide (4 ≤ s.fe.phase ∧ s.fe.phase < last)

/-- R268: the dither of a modulator: off, normal, or raised to the Kern level. -/
inductive Dither where
  | off | normal | raised
deriving DecidableEq, Repr

/-- R268, Table 09-8 DITH: the dither of a running channel in this mt. -/
def ditherOf (k : Chan) (s : State) : Dither :=
  if !s.kern.dith then .off else if isRunning k s && !isDc s && kernGapMt k s then .raised else .normal

/-- R268: Kern's sampling of a running channel in this turn; `dcTurn` is one of the sixteenth turns in DC. A gap whose monitor
reading raised A, 1, A, 2 or A, 4 gives none of its samples. -/
def kernSample (k : Chan) (dcTurn : Bool) (s : State) : State :=
  let held := kernHeld k s
  let c := s.kern.ch.get k
  let s1 := modKern k (fun x => { x with susp := held }) (when (held && !c.susp) (raise (calE k 12)) s)
  if isDc s then
    if dcTurn && !held then modKern k (fun x => { x with samples := x.samples + 1 }) s1 else s1
  else
    let got := if kernGapMt k s && !held then 1 else 0
    let c0 := s.fe.ch.get k
    if inGap s && decide (s.fe.phase + 1 = blankMt s) then
      modKern k (fun x => { x with
        samples := x.samples + (if c0.gapBad then 0 else x.gapSamples + got), gapSamples := 0 }) s1
    else modKern k (fun x => { x with gapSamples := x.gapSamples + got }) s1

/-- R167, R267: the demodulated sample of a channel: Kern's correction, then the polarity; in a gap the last one repeats. -/
def demodulated (k : Chan) (i : ChanInput) (avdd : Nat) (s : State) : Int :=
  let c := s.fe.ch.get k
  if inGap s then c.last
  else
    let v := modulatorSample c (sensedUv s.fe.amp avdd i.bridge) i.input i.noise -
      kernCorrection (s.kern.ch.get k).applied i.elems
    if s.fe.pol then v else -v

/-- One running channel in one turn; `o` is what `overloadStep` found. -/
def runChannel (k : Chan) (i : ChanInput) (avdd : Nat) (dcTurn : Bool) (o : State × Bool × Bool) : State × Option Int :=
  let s1 := kernSample k dcTurn o.1
  let x := if o.2.1 then 0 else demodulated k i avdd s1
  let s2 := modFm k (fun c => { c with age := c.age + 1 })
    (modFe k (fun c => { c with last := if inGap s1 then c.last else x }) s1)
  let r := formeSample k x o.2.1 s2
  if o.2.2 then (restartForme k r.1, r.2) else r

/-- One channel in one turn: monitors from E on, settling, the forme once it runs. -/
def channelTurn (k : Chan) (i : ChanInput) (avdd : Nat) (avddBad dcTurn : Bool) (s : State) : State × Option Int :=
  if !(s.fe.ch.get k).drv then (s, none)
  else
    let s1 := monitorChannel k i avdd avddBad s
    match (s1.fe.ch.get k).state with
    | .starting => (modFe k (fun c => { c with settle := c.settle - 1 }) (overloadStep k i avdd s1).1, none)
    | .running => runChannel k i avdd dcTurn (overloadStep k i avdd s1)
    | _ => (s1, none)

/-! ## The spare part (R404) -/

/-- R190, R21: st of the spare part: 12 where MOD is untrimmed, on a trimmed NODE 11 to 13 (log entry 16). -/
def spareSt (draw : Nat) (s : State) : Nat :=
  if isNode s && decide (s.sys.modtrim ≠ 0) then (12 + clampInt (-1) 1 (Config.spareShift draw)).toNat else 12

/-- R242: the tone detector takes a sample of the selected channel, or skips it. A block that is full is handed to
TONE_BLOCK_RESULT. -/
def toneSample (x : Int) (taken : Bool) (s : State) : State :=
  let t := s.tone
  let b := t.block.getD { n := 0, re := 0, im := 0, skipped := false }
  let add := toneTerm t.usePinc b.n (sat32 (narrow x))
  let b1 : ToneBlock :=
    if taken then { n := b.n + 1, re := b.re + add.1, im := b.im + add.2, skipped := b.skipped }
    else { n := b.n + 1, re := b.re, im := b.im, skipped := true }
  let skips := if taken ∨ t.skipcnt = 0xFF then t.skipcnt else t.skipcnt + 1
  let full := decide (t.useNm1.toNat + 1 ≤ b1.n)
  { s with tone := { t with
    block := if full then none else some b1, due := if full then some b1 else t.due, skipcnt := skips
    busy := t.busy && !(full && !t.cont) } }

/-- R404, Table 13-2: the users of the spare part: Kern in DC, the solve, the tone detector. -/
def spareTurn (dcTurn : Bool) (tone : Option Int) (s : State) : State :=
  let d := nextDraw s
  let total := spareSt d.1 s
  let kernSt := if dcTurn then (channels.filter fun k => bitOf s.kern.en k.val).length else 0
  let left := total - kernSt
  let solve := if s.kern.solves.isEmpty then 0 else min (min 8 left) s.kern.solveLeft
  let s1 := { d.2 with kern := { s.kern with solveLeft := s.kern.solveLeft - solve } }
  match tone with
  | some x => if s1.tone.busy then toneSample x (decide (0 < left - solve)) s1 else s1
  | none => s1

/-! ## The turn -/

/-- R139: the self checks of a turn: a check read of each memory, overrun, the numbering of the sample sets. -/
def selfCheckTurn (t : TurnInput) (s : State) : State :=
  let s1 := forAll (List.range 17) parityRead { s with sys := { s.sys with parity := t.parity } }
  let s2 := detect 0x3D4 t.overrun s1
  let s3 := match s2.sys.sets with
    | n :: _ => detect 0x3E1 (decide (t.setNo ≠ n + 1)) s2
    | [] => s2
  { s3 with sys := { s3.sys with sets := (t.setNo :: s3.sys.sets).take 2, turns := s3.sys.turns + 1 } }

/-- R296: MODTRIM, in counts of 2 ppm, that reduces a phase error `e`: the trim that cancels the offset between the crystals,
and at most 50 counts (100 ppm) beyond it, at least 1; limited to ±125 counts (R21). A positive `e` is a sample that is late
(log entry 15). -/
def trimFor (offset : Int) (slew : Nat) (e : Int) : Int :=
  let m : Nat := if e = 0 then 0 else max 1 (min 50 slew)
  clampInt (-125) 125 (if e < 0 then offset - m else offset + m)

/-- MODTRIM takes a value, or its limit where an injection shows it there (R149); event 2A8h as it reaches its limit (log entry
15). -/
def setTrim (v : Int) (s : State) : State :=
  let w : Int := if injected 0x2A8 s then (if v < 0 then -125 else 125) else v
  edge 0x2A8 (decide (v.natAbs = 125 ∧ s.sys.modtrim.toInt.natAbs ≠ 125))
    { s with sys := { s.sys with modtrim := BitVec.ofInt 8 w } }

/-- R296, R297, R35: in the first st of a turn a member NODE steers MODTRIM; outside membership it keeps the last trim; with
TRIM = 0, and with no link in use (R21), MODTRIM is 0. -/
def trimTurn (s : State) : State :=
  if !isNode s then s
  else if !s.gl.trimNow || decide (s.gl.state = .off) then { s with sys := { s.sys with modtrim := 0 } }
  else if s.gl.state = .member then
    let d := nextDraw s
    setTrim (trimFor (Config.crystalOffset d.1) (Config.trimSlew d.1) s.gl.e) d.2
  else s

/-- R163: the mt counter since the last reversal; a channel that waits for E may join the next reversal (R185). -/
def advancePhase (s : State) : State :=
  if s.fe.gen && !isDc s && decide (s.fe.phase < halfPeriod s) then
    forAll channels (fun k => modFe k fun c => { c with joinable := true })
      { s with fe := { s.fe with phase := s.fe.phase + 1 } }
  else s

/-! ## Work of the engine that a write began (R196, R224) -/

/-- R196: the image becomes the active forme and the edit buffer, with VALID; a preset's coefficients go to the active case;
delays are computed; the tone detector of the channel ends, for which R244 names no moment of the load (DESIGN CHOICE, log entry
58); event 0C0h + 20h × k. -/
def activateForme (k : Chan) (preset : Option (BitVec 3)) (image : Vector W32 64) (s : State) : State :=
  let s1 := installForme k image s
  let s2 := match preset with
    | some p => modCs k (fun c => setCase c.act (presetCase p (activeCase c)) c) s1
    | none => s1
  raise (fmA k 0) (toneEnd k (recompute k s2))

/-- R200, R216: a forme that has just become active on a channel whose class changed meanwhile is not valid. -/
def dropForeign (legal : Bool) (k : Chan) (s : State) : State :=
  if isLegal k s = legal then s else raise (fmA k 7) (modFm k (fun c => { c with valid := false }) s)

/-- R196: the load of a dynamic-class channel ends. -/
def endLoad (s : State) : State :=
  match s.fm.load with
  | some d => dropForeign false d.ch (activateForme d.ch d.preset d.image { s with fm := { s.fm with load := none } })
  | none => s

/-- One engine turn of a load and of a copy in progress; each ends with its last turn. -/
def countWork (s : State) : State :=
  let s1 := match s.fm.load with
    | some d => if d.left ≤ 1 then endLoad s else { s with fm := { s.fm with load := some { d with left := d.left - 1 } } }
    | none => s
  { s1 with cs := { s1.cs with copy := s1.cs.copy.bind fun c =>
    if c.left ≤ 1 then none else some { c with left := c.left - 1 } } }

/-- R190: one turn: self checks, the program parts of CH_0 to CH_3, the spare part. -/
def engineTurn (t : TurnInput) (s : State) : State :=
  let s1 := trimTurn (selfCheckTurn t s)
  let n := countMt (avddOutside t.avdd) s1.fe.avddMt
  let s2 := { s1 with
    fe := { s1.fe with avddMt := n, armWait := s1.fe.armWait - 1 }
    pwr := { s1.pwr with avddOk := !avddOutside t.avdd } }
  let dcTurn := isDc s2 && decide (s2.sys.turns % 16 = 0)
  let run := channels.foldl
    (fun (acc : State × Option Int) k =>
      let r := channelTurn k (t.ch.get k) t.avdd (decide (16 ≤ n)) dcTurn acc.1
      (r.1, if r.1.tone.useCh.toNat = k.val then r.2 else acc.2)) (s2, none)
  countWork (advancePhase (spareTurn dcTurn run.2 run.1))

/-- R21, R125: a sample set arrives; none does while the crystal is stopped. -/
def execEngineTurn (t : TurnInput) (s : State) : Host.Outcome State Fault Refusal :=
  complete (when (sysLive s && s.sys.xrun) (engineTurn t) s)

/-- R476: the reset of a modulator ends 32 mt after the input was last beyond the limit. -/
def endModReset (k : Chan) (s : State) : State :=
  match (s.fe.ch.get k).modReset with
  | some n =>
    if 32 ≤ n then
      modFe k (fun c => { c with modReset := none })
        { s with ev := { s.ev with held := setBit s.ev.held (feB k 3) false } }
    else s
  | none => s

def execModulatorResetEnd (k : Chan) (s : State) : Host.Outcome State Fault Refusal :=
  complete (when (sysLive s) (endModReset k) s)

end Sys2Proof.Machine
end

