-- ==== Sys2Proof/Machine/Clock.lean ====
section
/-! DEFINITION. Machine/Clock.lean: what passes where no command waits. -/

namespace Sys2Proof.Machine

/-- BKP ticks in 1/256 s (R390), and between two examinations by refresh (R366). -/
def fracTicks : Nat := 128
def refreshInterval : Nat := 9676800

/-- R366: in RUN the elapsed interval of refresh goes on with each 1/256 s (log entry 47). -/
def countRun (s : State) : State :=
  if s.pwr.phase = .run then
    { s with bkp := { s.bkp with refreshTicks := min refreshInterval (s.bkp.refreshTicks + fracTicks) } }
  else s

/-- 1/256 s is longer than a load, a copy, the way of an arming into MOD and the conversion of a set: all of them end (log entry
54). -/
def endWork (s : State) : State :=
  let s1 := endLoad s
  { s1 with cs := { s1.cs with copy := none }, fe := { s1.fe with armWait := 0 } }

/-- R390: the fraction of the real-time clock counts 1/256 s up to its last value; the next second is RTC_SECOND's. The clock
runs wherever the BKP domain does (log entry 2). -/
def idleTick (s : State) : Host.Outcome State Fault Refusal :=
  if s.pwr.phase ≠ .unpowered ∧ s.bkp.frac ≠ 0xFF then
    let t := { s with bkp := { s.bkp with frac := s.bkp.frac + 1 }, mark := .none }
    .next (countRun (if sysLive t then endWork t else t))
  else .next { s with mark := .none }

end Sys2Proof.Machine
end

