-- ==== Sys2Proof/Machine/Loader.lean ====
section
/-! DEFINITION. Machine/Loader.lean: FMCTL and the forme loader (R194 to R200), the start of a case store (Sequence 08-1,
steps 1 to 6), SMPCTL and the sample FIFO as the host reads it (R210 to R212). -/

namespace Sys2Proof.Machine

/-! ## Requests that begin a legal store -/

/-- R44, R361: a device legal store is accepted: the session's increment begins, and its pages wait their turn. -/
def beginStore (kind : StoreKind) (pages : List (Nat × List Byte)) (s : State) : State :=
  let s1 := beginChange s
  { s1 with nv := { s1.nv with legal := s1.nv.legal ++ [{ kind := kind, pages := pages }] } }

/-- A completed store is no longer in progress. -/
def endStore (l : LegalStore) (s : State) : State :=
  { s with nv := { s.nv with legal := s.nv.legal.erase l } }

/-- The oldest store that satisfies `p` and has committed every page. -/
def committedStore (p : StoreKind → Bool) (s : State) : Option LegalStore :=
  s.nv.legal.find? fun l => p l.kind && storeCommitted l s

/-- Bytes filled up to a page with FFh. -/
def fillPage (bs : List Byte) : List Byte := bs ++ List.replicate (64 - bs.length) 0xFF

/-- Consecutive pages from page `p` on. -/
def pagesFrom (p : Nat) : List (List Byte) → List (Nat × List Byte)
  | [] => []
  | b :: rest => (p, b) :: pagesFrom (p + 1) rest

/-- A case store or a forme load runs on some channel (R195, R227). -/
def loadRunning (s : State) : Bool := channels.any fun k => loadBusy k s

/-! ## Case stores (R227 to R230) -/

/-- Table 08-3: the trailer page. ICRC, FCRC and TCRC lie low byte first as GEN and STATE do; of these three Table 08-3 states
no byte order (DESIGN CHOICE, log entry 55). -/
def trailerPage (gen : Nat) (k : Chan) (lower complete : Bool) (icrc fcrc : Word) : List Byte :=
  let b := leBytes 4 gen ++ [BitVec.ofNat 8 k.val, if lower then 1 else 0] ++
    (if complete then [0xA5, 0xA5] else [0, 0]) ++ leBytes 2 icrc.toNat ++ leBytes 2 fcrc.toNat
  fillPage (b ++ leBytes 2 (crc16 b).toNat)

/-- Sequence 08-1, steps 1 and 4 to 6: the slot is chosen, the case is read (R139), and the pages wait in their order. -/
def startCaseStore (k : Chan) (tgt switch preset : Bool) (s : State) : State :=
  let slot := nextPoolSlot s
  let image := caseBytes (caseOf (s.cs.ch.get k) tgt)
  let icrc := crc16 image
  let fcrc := crc16 (formeBytes (s.fm.ch.get k).active)
  let t := fun c => (poolPage slot.1 + 32, trailerPage slot.2 k tgt c icrc fcrc)
  beginStore (.case k slot.1 icrc tgt switch preset)
    ([t false] ++ pagesFrom (poolPage slot.1) (pieces 64 32 image) ++ [t true]) (parityRead (caseParity k tgt) s)

/-! ## Forme loads -/

/-- R195: the source of a load: the edit buffer or a ROM preset. -/
def loadSource (k : Chan) (s : State) : Vector W32 64 :=
  if s.fm.src then presetImage s.fm.preset else (s.fm.ch.get k).edit

/-- R196: words LEN to 63 are written as 0. -/
def trimImage (image : Vector W32 64) : Vector W32 64 := vecOf 64 0 (image.toList.take (formeLen image))

/-- R195: a check refuses the load: REF, ERRC, ERRW, event 0C1h + 20h × k. -/
def refuseLoad (k : Chan) (errc errw : Nat) (s : State) : State :=
  raise (fmA k 1) { s with fm := { s.fm with ref := true, errc := BitVec.ofNat 4 errc, errw := BitVec.ofNat 6 errw } }

/-- Table 07-5: the pages of a stored forme. -/
def formePages (k : Chan) (slot gen : Nat) (image : Vector W32 64) : List (Nat × List Byte) :=
  let b := formeBytes image
  let g := leBytes 4 gen
  pagesFrom (formePage k slot) (pieces 64 4 b ++ [fillPage (g ++ leBytes 2 (crc16 (b ++ g)).toNat)])

/-- Sequence 07-1, steps 1 and 4. -/
def startFormeStore (k : Chan) (image : Vector W32 64) (s : State) : State :=
  let slot := nextStore (storedForme k s)
  beginStore (.forme k s.fm.src s.fm.preset image) (formePages k slot.1 slot.2 image) s

/-- R46: entries of a legal load of its own: code 21h, and code 20h for the case of a preset. -/
def loadEntries (s : State) : Nat := if s.fm.src then 2 else 1

/-- R196: a load of a dynamic-class channel lasts 1,024 st, 16 engine turns (log entry 54). -/
def loadTurns : Nat := 16

/-- R195, R196: an accepted load of a dynamic-class channel is in progress. -/
def startDynLoad (k : Chan) (image : Vector W32 64) (s : State) : State :=
  { s with fm := { s.fm with
    load := some { ch := k, preset := if s.fm.src then some s.fm.preset else none, image := image, left := loadTurns } } }

/-- R195: a load of channel FMCTL.CH. -/
def formeLoad (s : State) : State :=
  let k := chanOf s.fm.sel
  if !atRest k s then raise (fmA k 2) s
  else if loadRunning s then raise (fmA k 3) s
  else if isLegal k s && !inMakeready s then raise 0x24 s
  else if isClosing s || (isLegal k s && !legalRoom (loadEntries s) s) then raise 0x14 s
  else
    match loaderCheck (isLegal k s) (loadSource k s) with
    | some (c, w) => refuseLoad k c w s
    | none =>
      let image := trimImage (loadSource k s)
      let s1 := { s with fm := { s.fm with loadBit := true } }
      if isLegal k s then startFormeStore k image s1 else startDynLoad k image s1

/-- Table 07-8: a RAW bit that the write would change on a legal-class channel. -/
def rawChange (v : Word) (s : State) : Bool :=
  channels.any fun k => isLegal k s && (bitOf v (4 + k.val) != bitOf s.fm.raw k.val)

/-- Table 07-8: a write of FMCTL: its RW fields, the RWM bits of RAW, LOAD. -/
def writeFmctl (v : Word) (s : State) : State :=
  let s1 := setRawOf (fun k => !isLegal k s) v { s with fm := { s.fm with
    src := bitOf v 14, sel := BitVec.ofNat 2 (fieldOf v 12 2), preset := BitVec.ofNat 3 (fieldOf v 9 3) } }
  let s2 := rwmWrite (rawChange v s) 0x1F v (setRaw v) s1
  if bitOf v 15 then formeLoad s2 else s2

def execFormeLoad (w : Word) (s : State) : Host.Outcome State Fault Refusal :=
  complete (onBus (writeFmctl (w ||| 0x8000)) s)

/-- A forme load whose store has committed. -/
def isFormeKind : StoreKind → Bool
  | .forme .. => true
  | _ => false

/-- Sequence 07-1, step 5: the forme becomes active and code 21h is queued; a preset's case is stored next (R228), once no
other case store runs. A CLASS change made meanwhile now clears VALID (R216). -/
def formeStored (l : LegalStore) (s : State) : State :=
  match l.kind with
  | .forme k src preset image =>
    let s1 := activateForme k (if src then some preset else none) image (endStore l s)
    let s2 := logNow (storeEntry l.kind).1 (storeEntry l.kind).2 s1
    let s3 := dropForeign true k s2
    if src then startCaseStore k (s3.cs.ch.get k).act false true s3 else s3
  | _ => s

/-- A case store of any channel runs. -/
def anyCaseStore (s : State) : Bool := channels.any fun k => caseBusy k s

/-- Sequence 07-1, step 5 is due. -/
def formeDue (s : State) : Option LegalStore :=
  match committedStore isFormeKind s with
  | some l =>
    match l.kind with
    | .forme _ true _ _ => if anyCaseStore s then none else some l
    | _ => some l
  | none => none

/-- Step 5 is held until the queue has a place for code 21h (R385). -/
def execFormeLoadComplete (s : State) : Host.Outcome State Fault Refusal :=
  if sysLive s then
    match formeDue s with
    | some l => complete (when (placesFree 1 s) (formeStored l) s)
    | none => complete s
  else complete s

/-! ## The sample FIFO (R210 to R212) -/

/-- R211: FLUSH. -/
def flushFifo (s : State) : State := { s with fm := { s.fm with fifo := [], snap := none, pos := 0 } }

/-- Table 07-10: a write of SMPCTL; SINK is writable on a NODE only (R212). -/
def writeSmpctl (v : Word) (s : State) : State :=
  let s1 := { s with fm := { s.fm with
    sink := isNode s && bitOf v 14, wm := BitVec.ofNat 6 (fieldOf v 8 6)
    chen := BitVec.ofNat 4 (fieldOf v 4 4), tapen := BitVec.ofNat 4 (fieldOf v 0 4) } }
  when (bitOf v 15) flushFifo s1

def execFifoFlush (w : Word) (s : State) : Host.Outcome State Fault Refusal :=
  complete (onBus (writeSmpctl (w ||| 0x8000)) s)

/-- R211: a read of SMPDAT: the word and what the read changes. -/
def readSmpdat (s : State) : Word × State :=
  if s.fm.pos = 0 then
    match s.fm.fifo with
    | r :: rest =>
      if s.fm.sink then (0, edge (fmB 0 6) true s)
      else (lowWord r.value, parityRead 12 { s with fm := { s.fm with fifo := rest, snap := some r, pos := 1 } })
    | [] => (0, edge (fmB 0 6) true s)
  else
    let r := s.fm.snap.getD { value := 0, tag := 0 }
    if s.fm.pos = 1 then (highWord r.value, { s with fm := { s.fm with pos := 2 } })
    else (r.tag, { s with fm := { s.fm with pos := 0 } })

/-- The word that a read answers stands on D[15:0] (R106). -/
def answer (r : Word × State) : State := { r.2 with bus := { r.2.bus with data := r.1, driven := true } }

def execSmpdatRead (s : State) : Host.Outcome State Fault Refusal :=
  complete (onBus (fun t => answer (readSmpdat t)) s)

end Sys2Proof.Machine
end

