-- ==== Sys2Proof/Machine/Calib.lean ====
section
/-! DEFINITION. Machine/Calib.lean: CALCTL and the stores of calibration sets (R255 to R259), KERNCTL, the epochs and solves
of Kern (R267 to R271, R405). -/

namespace Sys2Proof.Machine

/-! ## Calibration stores -/

/-- Table 09-2: the first failing check, 0 where all pass. -/
def calCheck (k : Chan) (s : State) : Nat :=
  let set := (s.cal.ch.get k).buf
  if calCountBad set then 1
  else if calTempsBad set then 2
  else if calExternal set && !s.cal.txen then 3
  else if calFormBad set then 4
  else if !atRest k s then 5
  else if !s.nv.legal.isEmpty || s.fm.load.isSome then 6
  else 0

/-- Table 09-3: the pages of a stored set. -/
def calPages (k : Chan) (slot gen : Nat) (set : Vector W32 33) : List (Nat × List Byte) :=
  let b := bytesOfW32s set.toList
  let g := leBytes 4 gen
  pagesFrom (calPage k slot) (pieces 64 2 (b.take 128) ++ [fillPage (b.drop 128 ++ g ++ leBytes 2 (crc16 (b ++ g)).toNat)])

/-- R256, R257: an accepted store. -/
def startCalStore (k : Chan) (s : State) : State :=
  let slot := nextStore (storedCal k s)
  let set := (s.cal.ch.get k).buf
  beginStore (.cal k slot.1 set) (calPages k slot.1 slot.2 set) { s with cal := { s.cal with errc := 0 } }

/-- R256: STORE in MAKEREADY, before closing: the checks of Table 09-2, then the store. -/
def calStore (s : State) : State :=
  let k := chanOf s.cal.sel
  let c := calCheck k s
  if c ≠ 0 then raise (calE k 1) { s with cal := { s.cal with errc := BitVec.ofNat 3 c } }
  else if !legalRoom 1 s then raise 0x14 s
  else startCalStore k s

/-- R259: RELOAD, ignored during a store. -/
def calReload (s : State) : State :=
  if channels.any (fun k => calBusy k s) then s else reloadCal (chanOf s.cal.sel) s

/-- R12, R256: TXEN and STORE: outside MAKEREADY one event 024h, during closing one event 014h. -/
def calRwm (v : Word) (s : State) : State :=
  let change := decide (bitOf v 11 ≠ s.cal.txen)
  if !change && !bitOf v 15 then s
  else if !inMakeready s then raise 0x24 s
  else if isClosing s then raise 0x14 s
  else
    when (bitOf v 15) calStore (rwmWrite change 0x26 v (setTxen v) s)

/-- Table 09-6: a write of CALCTL: its RW fields, its RWM fields, RELOAD. Of STORE and RELOAD in one word STORE is acted on first,
so that R259 ignores RELOAD where the store has begun (DESIGN CHOICE, log entry 58). -/
def writeCalctl (v : Word) (s : State) : State :=
  let s1 := { s with cal := { s.cal with sel := BitVec.ofNat 2 (fieldOf v 12 2), tview := bitOf v 10 } }
  when (bitOf v 14) calReload (calRwm v s1)

def execCalStore (w : Word) (s : State) : Host.Outcome State Fault Refusal :=
  complete (onBus (writeCalctl (w ||| 0x8000)) s)

def execCalReload (w : Word) (s : State) : Host.Outcome State Fault Refusal :=
  complete (onBus (writeCalctl (w ||| 0x4000)) s)

/-- A calibration store. -/
def isCalKind : StoreKind → Bool
  | .cal .. => true
  | _ => false

/-- Sequence 09-1, step 5: VALID, event 160h + 10h × k, code 22h. -/
def calStored (l : LegalStore) (s : State) : State :=
  match l.kind with
  | .cal k _ set =>
    let s1 := modCal k (fun c => { c with stored := some set }) (endStore l s)
    logNow (storeEntry l.kind).1 (storeEntry l.kind).2 (raise (calE k 0) s1)
  | _ => s

/-- Step 5 is held until the queue has a place for code 22h (R385). -/
def execCalStoreComplete (s : State) : Host.Outcome State Fault Refusal :=
  if sysLive s then
    match committedStore isCalKind s with
    | some l => complete (when (placesFree 1 s) (calStored l) s)
    | none => complete s
  else complete s

/-! ## Kern -/

/-- R274: RST: estimate, pending and applied coefficients of a channel cleared; KERNQ reads FFFFh (R269). -/
def kernReset (k : Chan) (s : State) : State :=
  kokCheck k (modKern k (fun c => { c with
    applied := Vector.replicate 16 0, pend := none, late := false, q := 0xFFFF, samples := 0, gapSamples := 0
    zeroNext := false }) (dropSolve k s))

/-- R12: the RWM fields of KERNCTL that a word would change: EN of legal-class channels, DITH, QGATE, FRZ, QLIM. -/
def kernRwmChange (v : Word) (s : State) : Bool :=
  (channels.any fun k => isLegal k s && (bitOf v (12 + k.val) != bitOf s.kern.en k.val)) ||
  decide ((v ^^^ kernctlWord s) &&& 0x0E3F ≠ 0)

/-- Table 09-8: a write of KERNCTL: QSEL and the EN bits of dynamic-class channels, the RWM fields, RST of channel QSEL. In
RUN a refused RWM change and a refused RST make one event 024h. -/
def writeKernctl (v : Word) (s : State) : State :=
  let k := chanOf (BitVec.ofNat 2 (fieldOf v 6 2))
  let s0 := { s with kern := { s.kern with qsel := BitVec.ofNat 2 (fieldOf v 6 2) } }
  let s1 := setKernEn (fun j => !isLegal j s) v s0
  let s2 := forAll channels kokCheck s1
  let refused := bitOf v 8 && isLegal k s && !inMakeready s
  let change := kernRwmChange v s
  let s3 := if refused && !change then raise 0x24 s2 else rwmWrite change 0x28 v (setKernctl v) s2
  if bitOf v 8 && !refused then kernReset k s3 else s3

def execKernReset (w : Word) (s : State) : Host.Outcome State Fault Refusal :=
  complete (onBus (writeKernctl (w ||| 0x0100)) s)

/-- R405: a solve is requested; solves run in channel order, and one that has begun runs to its end. -/
def requestSolve (k : Chan) (s : State) : State :=
  match s.kern.solves with
  | [] => { s with kern := { s.kern with solves := [k], solveLeft := 512 } }
  | j :: rest =>
    let put := rest.filter (fun i => decide (i.val < k.val)) ++ [k] ++ rest.filter (fun i => decide (k.val < i.val))
    { s with kern := { s.kern with solves := j :: (if j = k then rest else put) } }

/-- R269: 2^20 samples end an epoch. -/
def epochEnd (k : Chan) (s : State) : State :=
  if 2 ^ 20 ≤ (s.kern.ch.get k).samples then
    requestSolve k (modKern k (fun c => { c with samples := c.samples - 2 ^ 20 }) s)
  else s

def execKernEpochEnd (k : Chan) (s : State) : Host.Outcome State Fault Refusal :=
  complete (when (sysLive s) (epochEnd k) s)

/-- R267, R269: a new estimate: free values without their mean; zeros where they do not fit the format (log entry 13). -/
def newEstimate (draw : Nat) : Vector W32 16 :=
  let r := (List.range 16).map (Config.kernEstimate draw)
  let m := roundAway r.sum 16
  let c := r.map fun x => x - m
  if c.all (fun x => decide (-(2 ^ 31) ≤ x ∧ x < 2 ^ 31)) then vecOf 16 0 (c.map (BitVec.ofInt 32))
  else Vector.replicate 16 0

/-- R405, R269 to R271: a solve ends: KERNQ is updated, and the estimate becomes pending unless FRZ = 1 or Kern is off. -/
def solveEnd (s : State) : State :=
  match s.kern.solves with
  | [] => s
  | k :: rest =>
    if s.kern.solveLeft ≠ 0 then s
    else
      let d := nextDraw s
      let s1 := { d.2 with kern := { s.kern with solves := rest, solveLeft := if rest.isEmpty then 0 else 512 } }
      let q := Config.kernQuality d.1
      let takes := !s.kern.frz && bitOf s.kern.en k.val
      kokCheck k (modKern k (fun c => { c with
        q := if q = 0xFFFF then 0xFFFE else q
        pend := if takes then some (newEstimate d.1) else c.pend, late := c.late && !takes }) s1)

def execKernSolveEnd (s : State) : Host.Outcome State Fault Refusal := complete (when (sysLive s) solveEnd s)

/-- R270: a correction that is not fully applied 60 s after it became pending: event 16Bh + 10h × k, once. -/
def pendingTimeout (k : Chan) (s : State) : State :=
  let c := s.kern.ch.get k
  if c.pend.isSome && !c.late then raise (calE k 11) (modKern k (fun x => { x with late := true }) s) else s

def execKernPendingTimeout (k : Chan) (s : State) : Host.Outcome State Fault Refusal :=
  complete (when (sysLive s) (pendingTimeout k) s)

end Sys2Proof.Machine
end

