-- ==== Sys2Proof/Machine/EventUnit.lean ====
section
/-! DEFINITION. Machine/EventUnit.lean: EVSUM, EVROUTE, injection (R147 to R152, R475), the event mailbox (R34, R472) and the
self checks of every millisecond (R139). -/

namespace Sys2Proof.Machine

/-! ## Summaries and routing -/

/-- R141: a write of EVSUM_n clears the enabled sticky bits of each group written as 1, or with SUMSEL = 1 its overflow
flag. -/
def writeEvsum (n : Nat) (v : Word) (s : State) : State :=
  if s.ev.sumsel then
    { s with ev := { s.ev with ovf := s.ev.ovf &&& ~~~((v.setWidth 64) <<< (16 * n)) } }
  else
    let mask := (List.range 16).foldl
      (fun (m : BitVec 1024) j => if bitOf v j then m ||| placeGroup 0xFFFF (16 * n + j) else m) 0
    { s with ev := clearSticky (mask &&& s.ev.enable) s.ev }

def execEvsumClear (n : Fin 4) (v : Word) (s : State) : Host.Outcome State Fault Refusal :=
  complete (onBus (writeEvsum n.val v) s)

/-- Table 05-6: EVROUTE as it reads. -/
def evrouteWord (s : State) : Word :=
  packWord [(flag s.ev.sumsel, 15), (flag s.ev.alen, 14), (flag s.ev.inten, 13), (s.ev.area.toNat, 0)]

/-- Table 05-6: a write of EVROUTE. -/
def writeEvroute (v : Word) (s : State) : State :=
  { s with ev := { s.ev with
      sumsel := bitOf v 15, alen := bitOf v 14, inten := bitOf v 13, area := BitVec.ofNat 11 (fieldOf v 0 11) } }

/-! ## Injection -/

/-- R147: 5A3Ch arms; any other value disarms, with event 028h. -/
def writeInjkey (v : Word) (s : State) : State :=
  if v = 0x5A3C then { s with ev := { s.ev with armed := true } }
  else raise 0x28 { s with ev := { s.ev with armed := false } }

def execInjkeyWrite (v : Word) (s : State) : Host.Outcome State Fault Refusal :=
  complete (onBus (writeInjkey v) s)

/-- Table 05-3: groups that may be injected in RUN and in start-up. -/
def injectableSealed (id : Nat) : Bool := isFrisketEvent id || decide (0x3C0 ≤ id)

/-- Table 05-3. -/
def injectAllowed (id : Nat) (s : State) : Bool :=
  s.ev.armed && !s.ev.act && eventExists (isNode s) id && (inMakeready s || injectableSealed id) && evaluates id s

/-- Table 05-7, R474: the W1C bits of an INJ write. -/
def clearInjFlags (v : Word) (s : State) : State :=
  { s with ev := { s.ev with
      miss := s.ev.miss && !bitOf v 13, ref := s.ev.ref && !bitOf v 12, abrt := s.ev.abrt && !bitOf v 11 } }

/-- A, 8 of a channel: its detector evaluates in each st (Table 06-8). -/
def isClockDetector (id : Nat) : Bool := decide (0x40 ≤ id ∧ id < 0xC0 ∧ id % 32 = 8)

/-- R149, R125, R89: what an injected event of a condition that is watched in every st sets beside its sticky bit: XLOST,
PLLLOST, LFXLOST (Table 04-11), and a stale heartbeat (log entry 21). -/
def injectionSets (id : Nat) (y : Sys) : Sys :=
  match id with
  | 2 => { y with hbFresh := false }
  | 6 => { y with xlost := true }
  | 7 => { y with plllost := true }
  | 8 => { y with lfxlost := true }
  | _ => y

/-- R149: the injected event is raised in the st of its INJ write: an event that reports an action, a path-test event, or one
whose detector evaluates in every st. A forced loss of the MOD clock also halts its channel, a crystal shown as stopped every
channel (R125, Table 06-8 A, 8). -/
def injectNow (id : Nat) (s : State) : State :=
  let s1 := { s with
    ev := { s.ev with evaluated := true, answered := !isClockDetector id || !Config.pathFailed id }
    sys := injectionSets id s.sys }
  if isClockDetector id then when (!Config.pathFailed id) (clockLost (eventChan 0x40 0x20 id)) s1
  else when (decide (id = 6)) (forAll channels clockLost) (raise id s1)

/-- The event is raised in the st of its INJ write. -/
def actsAtOnce (id : Nat) : Bool := isClockDetector id || !isDetector id

/-- R147 to R149: a write of INJ: accepted, or refused with REF and event 027h; either way injection is disarmed. -/
def writeInj (v : Word) (s : State) : State :=
  let id := fieldOf v 0 10
  let ok := injectAllowed id s
  let s1 := clearInjFlags v s
  let s2 := { s1 with ev := { s1.ev with armed := false } }
  if ok then
    let s3 := { s2 with ev := { s2.ev with
      act := true, evid := BitVec.ofNat 10 id, evaluated := false, answered := false, injLive := s.fk.livetest
      injMode := BitVec.ofNat 2 (modeState s) } }
    when (actsAtOnce id) (injectNow id) s3
  else raise 0x27 { s2 with ev := { s2.ev with ref := true } }

/-- R156, R403: the INJ write raises an event of an action, so that the same event made by the device in that st is no further
occurrence (log entry 48). -/
def injectsNow (v : Word) (s : State) : Bool := injectAllowed (fieldOf v 0 10) s && !isDetector (fieldOf v 0 10)

/-- The mark of an INJ write on the bus. -/
def injectMark (v : Word) (s : State) : StMark := if busLive s && injectsNow v s then .injected else .none

def execInjectStart (v : Word) (s : State) : Host.Outcome State Fault Refusal :=
  completeMarked (injectMark v s) (onBus (writeInj v) s)

/-- R151, R152: the injection ends after its evaluation: MISS and event 029h where its event did not occur; code 35h for groups
2Eh to 35h. -/
def injectionTested (s : State) : State :=
  let s1 := { s with ev := { s.ev with act := false } }
  let s2 := if s.ev.answered then s1 else raise 0x29 { s1 with ev := { s1.ev with miss := true } }
  when (isFrisketEvent s.ev.evid.toNat) (logNow 0x35 (injectionData s.ev.answered false s.ev)) s2

/-- R151: the time of an injection is over: its detector was evaluated, or it never was, and the injection ends as R475 has
it. -/
def injectionEnds (s : State) : State := if s.ev.evaluated then injectionTested s else injectionAborts s

def execInjectionEnd (s : State) : Host.Outcome State Fault Refusal :=
  complete (when (sysLive s && s.ev.act) injectionEnds s)

/-! ## The mailbox (R34, R472) -/

/-- R472, R34: SYS takes the oldest entry, its parity checked as it is read (R139), and raises its event. A pending flag is then
posted. Which of several flags comes first the spec leaves open: the one set first does (DESIGN CHOICE, log entry 36). -/
def takeMail (s : State) : State :=
  match s.bkp.mailbox with
  | [] => s
  | m :: rest =>
    let s1 := raise m.event (parityRead 16 { s with bkp := { s.bkp with mailbox := rest } })
    match s.bkp.flags with
    | [] => s1
    | f :: fs => { s1 with bkp := { s1.bkp with mailbox := rest ++ [f], flags := fs } }

def execMailboxEntry (s : State) : Host.Outcome State Fault Refusal := complete (when (sysLive s) takeMail s)

/-- R34: the pending-flag signal reaches SYS: event 00Ah. -/
def execMailboxFullSignal (s : State) : Host.Outcome State Fault Refusal :=
  complete (when (sysLive s && s.bkp.fullSignal)
    (fun t => raise 0xA { t with bkp := { t.bkp with fullSignal := false } }) s)

/-! ## Self checks of every millisecond (R139) -/

def execSelfCheckTick (noiseBad clockBad : Bool) (s : State) : Host.Outcome State Fault Refusal :=
  complete (when (sysLive s) (fun t => detect 0x3E0 clockBad (detect 0x3D3 noiseBad t)) s)

end Sys2Proof.Machine
end

