-- ==== Sys2Proof/Machine/Front.lean ====
section
/-! DEFINITION. Machine/Front.lean: EXCCTL, CHCTL and CHSTART, channel starts and stops (Sequence 06-2), the excitation, the
gap monitors, the crystal and the PLL, temperature conversions (chapters 06 and 09). -/

namespace Sys2Proof.Machine

/-! ## EXCCTL and CHCTL -/

/-- R164, R180: an EXCCTL write refused: REF, and event A, 9 of CH_0. -/
def refuseExcctl (s : State) : State := raise (feA 0 9) { s with fe := { s.fe with ref := true } }

/-- R12, R164, R180: a write of EXCCTL. A write outside MAKEREADY is one to an RWM register, with event 024h; Table 06-13 names
R164 and R180 for REF, which that refusal leaves as it is (DEDUCED, log entry 58). -/
def writeExcctl (v : Word) (s : State) : State :=
  if !inMakeready s then raise 0x24 s
  else if !channels.all (fun k => atRest k s) || excctlBad v then refuseExcctl s
  else rwmWrite (decide (v &&& 0xFFE0 ≠ excctlWord s)) 0x1D v (setExcctl v) s

def execExcctlWrite (w : Word) (s : State) : Host.Outcome State Fault Refusal :=
  complete (onBus (writeExcctl w) s)

/-- The configuration bits of CHCTL that a word would change: CLASS, SHORT, RANGE. -/
def chctlChange (k : Chan) (v : Word) (s : State) : Word := (v ^^^ chctlWord k s) &&& 0x3C00

/-- Table 06-10: the RWM bits among them. -/
def chctlRwm (k : Chan) (s : State) : Word := if isLegal k s then 0x3C00 else 0x2000

/-- R180: the configuration fields of a CHCTL write, in its order: in RUN the RWM fields stay, with event 024h; then a
channel that is not at rest refuses with event B, 6. A write that repeats the present CLASS, SHORT and RANGE is no write to
these fields, as for R12: R180 does not say (DESIGN CHOICE, log entry 22). -/
def chctlConfig (k : Chan) (v : Word) (s : State) : State :=
  let rwm := decide (chctlChange k v s &&& chctlRwm k s ≠ 0)
  let plain := decide (chctlChange k v s &&& ~~~(chctlRwm k s) ≠ 0)
  let s1 := when (rwm && !inMakeready s) (raise 0x24) s
  let left := rwm && inMakeready s
  if !left && !plain then s1
  else if !atRest k s then raise (feB k 6) s1
  else
    let s2 := when plain (setShortRange k v) s1
    if left then rwmWrite true (BitVec.ofNat 6 (0x14 + k.val)) v (setChctl k v) s2 else s2

/-- R177, R184: a request joins the one before it where both take effect in the same MOD clock. -/
def joinRequest (join : Bool) (m : BitVec 4) : List (BitVec 4) → List (BitVec 4)
  | [] => [m]
  | [last] => if join then [last ||| m] else [last, m]
  | x :: rest => x :: joinRequest join m rest

/-- R177, R78, R184: a start is requested for the channels of a mask. Which requests cross into MOD in the same MOD clock is
open (log entry 25). In start-up the request is held, with event 005h. -/
def startRequest (m : BitVec 4) (s : State) : State :=
  if m = 0 then s
  else if s.pwr.phase = .startup then raise 5 { s with fe := { s.fe with heldStarts := s.fe.heldStarts ||| m } }
  else if s.fe.starts = [] then { s with fe := { s.fe with starts := [m] } }
  else
    let d := nextDraw s
    { d.2 with fe := { s.fe with starts := joinRequest (Config.sameClock d.1) m s.fe.starts } }

/-- R178: a stop is requested for the channels of a mask. -/
def stopRequest (m : BitVec 4) (s : State) : State := { s with fe := { s.fe with stops := s.fe.stops ++ [m] } }

/-- The mask of one channel. -/
def oneChannel (k : Chan) : BitVec 4 := BitVec.twoPow 4 k.val

/-- R176 to R183: a write of CHCTL_k; START and STOP together act as a stop alone. -/
def writeChctl (k : Chan) (v : Word) (s : State) : State :=
  let s1 := chctlConfig k v s
  if bitOf v 14 then stopRequest (oneChannel k) (modFe k (fun c => { c with stopBit := true }) s1)
  else if bitOf v 15 then startRequest (oneChannel k) (modFe k (fun c => { c with startBit := true }) s1)
  else s1

def execChctlConfigWrite (k : Chan) (w : Word) (s : State) : Host.Outcome State Fault Refusal :=
  complete (onBus (writeChctl k (w &&& 0x3FFF)) s)

def execChannelStartRequest (k : Chan) (w : Word) (s : State) : Host.Outcome State Fault Refusal :=
  complete (onBus (writeChctl k (w ||| 0x8000)) s)

def execChannelStopRequest (k : Chan) (w : Word) (s : State) : Host.Outcome State Fault Refusal :=
  complete (onBus (writeChctl k (w ||| 0x4000)) s)

/-! ## CHSTART (R179, R183) -/

/-- Table 06-11; GO, STOP and CANCEL read 1 until the request takes effect. -/
def chstartWord (s : State) : Word :=
  packWord [(flag (decide (0 < s.fe.goWait)), 15), (flag (decide (0 < s.fe.stopWait)), 14), (flag s.fe.cancel, 13),
    (flag s.fe.armed, 12), (flag s.fe.syncm, 8), (s.fe.mask.toNat, 0)]

/-- GO of CHSTART: its start is requested, and GO reads 1 until that request takes effect. -/
def goRequest (m : BitVec 4) (s : State) : State :=
  let s1 := startRequest m s
  { s1 with fe := { s1.fe with goWait := if m = 0 then 0 else max 1 s1.fe.starts.length } }

/-- STOP of CHSTART. -/
def stopAllRequest (m : BitVec 4) (s : State) : State :=
  let s1 := stopRequest m s
  { s1 with fe := { s1.fe with stopWait := s1.fe.stops.length } }

/-- R179: CANCEL is requested: it will clear the arming that stands. -/
def cancelRequest (s : State) : State :=
  { s with fe := { s.fe with cancel := true, cancelWait := true, cancelHits := true } }

/-- R179, R186: GO with SYNCM = 1 arms CHSTART. A cancel written before it does not reach this arming; one written with it in
the same word does, which R179 leaves open (DESIGN CHOICE, log entry 25). -/
def armStart (withCancel : Bool) (s : State) : State :=
  { s with fe := { s.fe with armed := true, armWait := 2, cancelHits := s.fe.cancelHits && withCancel } }

/-- R177 to R179: a write of CHSTART: the RW fields, then CANCEL, then STOP or else GO. -/
def writeChstart (v : Word) (s : State) : State :=
  let m := BitVec.ofNat 4 (fieldOf v 0 4)
  let s1 := when (bitOf v 13) cancelRequest { s with fe := { s.fe with syncm := bitOf v 8, mask := m } }
  if bitOf v 14 then stopAllRequest m s1
  else if bitOf v 15 then if bitOf v 8 then armStart (bitOf v 13) s1 else goRequest m s1
  else s1

def execChstartGo (w : Word) (s : State) : Host.Outcome State Fault Refusal :=
  complete (onBus (writeChstart (w ||| 0x8000)) s)

def execChstartStop (w : Word) (s : State) : Host.Outcome State Fault Refusal :=
  complete (onBus (writeChstart (w ||| 0x4000)) s)

def execChstartCancel (w : Word) (s : State) : Host.Outcome State Fault Refusal :=
  complete (onBus (writeChstart (w ||| 0x2000)) s)

/-- The MOD domain has a clock (R125). -/
def modClock (s : State) : Bool := sysLive s && s.sys.xrun

/-- R179, R186: a cancel reaches MOD and clears the arming that stood when it was written. -/
def cancelEffect (s : State) : State :=
  { s with fe := { s.fe with
    armed := s.fe.armed && !s.fe.cancelHits, cancel := false, cancelWait := false, cancelHits := false } }

def execCancelTakesEffect (s : State) : Host.Outcome State Fault Refusal :=
  complete (when (modClock s && s.fe.cancelWait) cancelEffect s)

/-- R179: the edge starts the channels in MASK as they stand. -/
def takeEdge (s : State) : State :=
  startRequest s.fe.mask { s with fe := { s.fe with armed := false, armWait := 0, cancelHits := false } }

/-- R179, R186: a rising edge on SYNC while ARMED. Whether it was synchronised after an arming that is still on its way into MOD
is open (log entry 25). -/
def syncEdge (s : State) : State :=
  if s.fe.armWait = 0 then takeEdge s
  else
    let d := nextDraw s
    if Config.armTaken d.1 then takeEdge d.2 else d.2

def execSyncEdge (s : State) : Host.Outcome State Fault Refusal :=
  complete (when (modClock s && s.pwr.vddio && s.fe.armed) syncEdge s)

/-! ## Starts and stops take effect (Sequence 06-2) -/

/-- Conditions of a channel's detectors are evaluated afresh from its start on (R135, log entry 24). -/
def clearHeld (k : Chan) (s : State) : State :=
  let m := placeGroup 0xFFFF (4 + 2 * k.val) ||| placeGroup 0x0FFF (5 + 2 * k.val) |||
    placeGroup 0xFFFF (0xD + 2 * k.val) ||| placeGroup 0x1FF0 (0x16 + k.val)
  { s with ev := { s.ev with held := s.ev.held &&& ~~~m } }

/-- R185: the origin falls in the mt of a positive-going reversal. -/
def originAtReversal (s : State) : Bool :=
  s.fe.gen && !isDc s &&
    ((decide (s.fe.phase = halfPeriod s) && !s.fe.pol) || (decide (s.fe.phase = 0) && s.fe.pol))

/-- Sequence 06-2, step 1: STARTING, the configuration frozen, counts reset, the working set latched (R260), numbering from
1 (R203, R208). R168 does not say with which sign the input-open tests begin, nor whether their alternation restarts: it
restarts with each start (DESIGN CHOICE, log entry 24). -/
def beginStart (k : Chan) (s : State) : State :=
  let s1 := modFe k (fun c => { c with
    state := .starting, shortNow := c.short, rangeNow := c.range, waitE := true, joinable := !originAtReversal s
    settle := 0, gaps := 0, openSign := false, limitMt := 0, lowMt := 0, cmMt := 0, overMt := 0, dcMt := 0
    modReset := none, last := 0, gapBad := false }) s
  let s2 := restartForme k (latchCal k (clearHeld k s1))
  modFm k (fun c => { c with
    seq := 0, tapSeq := 0, lastOvr := false, haveOut := false, age := 0 }) s2

/-- R177, R184, R200, R227, R275: one channel of a request. -/
def startChannel (k : Chan) (s : State) : State :=
  if !atRest k s then
    raise (feB k 7) (modFe k (fun c => { c with startBit := c.startBit && decide (c.state = .starting) }) s)
  else
    let noForme := !(s.fm.ch.get k).valid || loadBusy k s
    if noForme || calBusy k s then
      when (calBusy k s) (raise (calE k 7)) (when noForme (raise (fmA k 4))
        (modFe k (fun c => { c with startBit := false }) s))
    else beginStart k s

/-- R177: the oldest request takes effect; its channels share one origin. -/
def startEffect (s : State) : State :=
  match s.fe.starts with
  | [] => s
  | m :: rest =>
    forAll channels (fun k => when (bitOf m k.val) (startChannel k))
      { s with fe := { s.fe with starts := rest, goWait := s.fe.goWait - 1 } }

def execStartTakesEffect (s : State) : Host.Outcome State Fault Refusal :=
  complete (when (modClock s && !decide (s.pwr.phase = .startup)) startEffect s)

/-- R178: at the mt boundary the channels of the oldest stop request stop. -/
def stopEffect (s : State) : State :=
  match s.fe.stops with
  | [] => s
  | m :: rest =>
    forAll channels (fun k => when (bitOf m k.val) fun t => modFe k (fun c => { c with stopBit := false }) (stopChannel k t))
      { s with fe := { s.fe with stops := rest, stopWait := s.fe.stopWait - 1 } }

def execStopTakesEffect (s : State) : Host.Outcome State Fault Refusal := complete (when (modClock s) stopEffect s)

/-- Sequence 06-2, step 2: this boundary is E for a waiting channel: the generator is idle, the excitation is DC, or a
positive-going reversal has just come, other than the one in the mt of the origin (R185). -/
def isE (k : Chan) (s : State) : Bool :=
  let c := s.fe.ch.get k
  c.waitE && decide (c.state = .starting) &&
    (!s.fe.gen || isDc s || (decide (s.fe.phase = 0) && s.fe.pol && c.joinable))

/-- Sequence 06-2, step 3 and the gap of step 4: mt from E to the first sample. -/
def settleMt (s : State) : Nat := if isDc s then 1536 else 768 * 2 ^ s.fe.fdiv.toNat + blankMt s

/-- Sequence 06-2, step 2: at E an idle generator restarts with positive polarity, or in DC with that of DCPOL, and the
drivers turn on. -/
def excitationOn (s : State) : State :=
  let due := channels.filter fun k => isE k s
  if due.isEmpty then s
  else
    let s1 := if s.fe.gen then s
      else { s with fe := { s.fe with gen := true, pol := !isDc s || !s.fe.dcpol, phase := 0 } }
    forAll due
      (fun k => modFe k fun c => { c with drv := true, waitE := false, settle := settleMt s, dcMt := 0 }) s1

def execExcitationOn (s : State) : Host.Outcome State Fault Refusal := complete (when (modClock s) excitationOn s)

/-- Sequence 06-2, step 4: the first sample: RUNNING, event B, 4. -/
def firstSample (k : Chan) (s : State) : State :=
  let c := s.fe.ch.get k
  if c.state = .starting ∧ c.drv ∧ c.settle = 0 then
    raise (feB k 4) (modFe k (fun x => { x with state := .running, startBit := false, gaps := 0 }) s)
  else s

def execFirstSample (k : Chan) (s : State) : Host.Outcome State Fault Refusal :=
  complete (when (modClock s) (firstSample k) s)

/-! ## Excitation -/

/-- R163, R168: the reversal at the end of a half-period: a gap begins and is counted for each running channel. -/
def reversal (s : State) : State :=
  if s.fe.gen && !isDc s && decide (halfPeriod s ≤ s.fe.phase) then
    forAll channels
      (fun k => modFe k fun c =>
        { c with gaps := if c.state = .running then c.gaps + 1 else c.gaps, gapBad := false })
      { s with fe := { s.fe with pol := !s.fe.pol, phase := 0 } }
  else s

def execExcitationReversal (s : State) : Host.Outcome State Fault Refusal := complete (when (modClock s) reversal s)

/-- R168: this gap of a running channel is a 64th one. -/
def openTestGap (k : Chan) (s : State) : Bool :=
  let c := s.fe.ch.get k
  isRunning k s && decide (0 < c.gaps ∧ c.gaps % 64 = 0)

/-- R168, R173, R268: the monitor reading of a channel in the last mt of a gap. -/
def gapReading (k : Chan) (r : GapReading) (s : State) : State :=
  let v := sensedUv s.fe.amp r.avdd r.bridge
  let out := ampOutside s.fe.amp r.avdd v
  let bad := out || senseOpen r.bridge || r.notReversed ||
    injected (feA k 1) s || injected (feA k 2) s || injected (feA k 4) s
  let s1 := detectFault k (feA k 1) out s
  let s2 := detect (feA k 3) (leadExcess v r.bridge) (detectFault k (feA k 2) (senseOpen r.bridge) s1)
  let s3 := detectFault k (feA k 4) r.notReversed s2
  let s4 := modFe k (fun c => { c with gapBad := bad }) s3
  if openTestGap k s then
    modFe k (fun c => { c with openSign := !c.openSign })
      (detectFault k (feB k 0) (r.openMoved && !(s.fe.ch.get k).shortNow) s4)
  else s4

/-- The last mt of a gap of a driven channel. -/
def gapEnds (k : Chan) (s : State) : Bool :=
  (s.fe.ch.get k).drv && inGap s && decide (s.fe.phase + 1 = blankMt s)

def execGapMonitorReading (k : Chan) (r : GapReading) (s : State) : Host.Outcome State Fault Refusal :=
  complete (when (modClock s && gapEnds k s) (gapReading k r) s)

/-! ## Crystal and PLL (R125) -/

/-- R125: the crystal is declared stopped: XLOST, event 006h, every running channel halts. -/
def crystalStop (s : State) : State :=
  forAll channels clockLost (raise 6 { s with sys := { s.sys with xrun := false, xlost := true } })

def execCrystalStop (s : State) : Host.Outcome State Fault Refusal :=
  complete (when (sysLive s && s.sys.xrun) crystalStop s)

/-- R139: the MOD clock returns; the numbering of the sample sets is taken afresh. -/
def execCrystalReturn (s : State) : Host.Outcome State Fault Refusal :=
  complete (when (sysLive s && !s.sys.xrun) (fun t => { t with sys := { t.sys with xrun := true, sets := [] } }) s)

/-- R125: the PLL loses lock: PLLLOST, event 007h. -/
def execPllLockLoss (s : State) : Host.Outcome State Fault Refusal :=
  complete (when (sysLive s && s.sys.plllk)
    (fun t => raise 7 { t with sys := { t.sys with plllk := false, plllost := true } }) s)

/-- R125: the PLL locks again; PLLLOST stays until firmware clears it. -/
def execPllRelock (s : State) : Host.Outcome State Fault Refusal :=
  complete (when (sysLive s && !s.sys.plllk) (fun t => { t with sys := { t.sys with plllk := true } }) s)

/-! ## Temperatures (R172, R261, R264) -/

/-- R264: the reading on which a channel interpolates: an injection shows it beyond the first or the last point (R149). -/
def clampedReading (k : Chan) (set : Vector W32 33) (t : Int) (s : State) : Int :=
  if injected (calE k 4) s then min t (calT set 0)
  else if injected (calE k 5) s then max t (calT set (calPoints set - 1))
  else t

/-- R264: a valid reading of a source reaches a running channel whose working set selects that source. -/
def newReading (isExt : Bool) (v : Word) (k : Chan) (s : State) : State :=
  let set := (s.cal.ch.get k).working
  if isRunning k s && (calExternal set == isExt) then
    clampCheck k v.toInt
      (modCal k (fun c => { c with pend := some (interpolate set (clampedReading k set v.toInt s)) }) s)
  else s

/-- R263: the evaluation of the condition at a reading of the selected source. An injection shows no valid reading (R149): the
channel interpolates at T of point 0. -/
def readingCheck (isExt : Bool) (k : Chan) (s : State) : State :=
  let set := (s.cal.ch.get k).working
  if atRest k s || (calExternal set != isExt) then noReadingCheck k s
  else if injected (calE k 6) s then
    edge (calE k 6) true
      (modCal k (fun c => { c with noReading := true, pend := some (interpolate set (calT set 0)) }) s)
  else edge (calE k 6) false (noReadingCheck k s)

/-- Table 06-8, B, 12 and B, 13: a fault of the external pair counts on a legal-class channel that interpolates on it. -/
def externalLegal (s : State) : Bool :=
  channels.any fun k => isLegal k s && isRunning k s && calExternal (s.cal.ch.get k).working

/-- An evaluation of B, 12 or B, 13. -/
def detectExternal (id : Nat) (cond : Bool) (s : State) : State :=
  when (occursNow id cond s && externalLegal s) (markLegal id) (detect id cond s)

/-- R172, R261: the end of a conversion of the die, or of the external pair (`isExt`). -/
def conversionDone (isExt : Bool) (c : TempReading) (s : State) : State :=
  -- R149: a condition that an injection forces makes the reading invalid as a real one does (R261)
  let ended := c.done && !injected (feB 0 14) s
  let open_ := c.isOpen || injected (feB 0 12) s
  let short := c.isShort || injected (feB 0 13) s
  let s1 := detectFault 0 (feB 0 14) (!c.done) s
  let s2 := if isExt && ended then
      detectExternal (feB 0 13) c.isShort (detectExternal (feB 0 12) c.isOpen s1)
    else s1
  let valid := ended && !(isExt && (open_ || short))
  let s3 := if !valid then s2
    else if isExt then { s2 with cal := { s2.cal with ext := some c.value } }
    else { s2 with cal := { s2.cal with die := some c.value } }
  let s4 := when valid (forAll channels (newReading isExt c.value)) s3
  forAll channels (readingCheck isExt) s4

/-- R172: die and external pair in alternation; the pair only while TXEN = 1. A conversion of the pair whose TXEN was
cleared is discarded (R281). -/
def tempDone (c : TempReading) (s : State) : State :=
  let isExt := s.cal.extTurn
  let s1 := if isExt && !s.cal.txen then s else conversionDone isExt c s
  { s1 with cal := { s1.cal with extTurn := !isExt && s1.cal.txen } }

def execTempConversionDone (c : TempReading) (s : State) : Host.Outcome State Fault Refusal :=
  complete (when (sysLive s) (tempDone c) s)

end Sys2Proof.Machine
end

