-- ==== Sys2Proof/Machine/NvUnit.lean ====
section
/-! DEFINITION. Machine/NvUnit.lean: NVCTL, NVPROT, TXNCTL and IMPCTL, the end of array operations, refresh, transactions and
the check of the Imprint log (chapter 12). -/

namespace Sys2Proof.Machine

/-! ## NVCTL -/

/-- R363: the page buffer is emptied. -/
def emptyBuffer (s : State) : State := { s with nv := { s.nv with bufPage := none, bufWords := [] } }

/-- R359, Table 12-3, R46: the event of the first failing check of COMMIT; none where it is accepted. -/
def commitRefusal (s : State) : Option Nat :=
  match s.nv.bufPage with
  | none => some 0x36C
  | some b =>
    let p := b.toNat
    if 768 ≤ p then some 0x365
    else if inL p && !inMakeready s then some 0x362
    else if inL p && (isClosing s || !legalRoom 1 s) then some 0x14
    else if isProtected s.nv.bp p then some 0x363
    else if hostOccupied s || commandStore s then some 0x366
    else none

/-- R359, R361: COMMIT. -/
def nvCommit (s : State) : State :=
  match commitRefusal s with
  | some ev => raise ev s
  | none =>
    let p := ((s.nv.bufPage).map (·.toNat)).getD 0
    let s1 := emptyBuffer { s with nv := { s.nv with host := some (.page p s.nv.bufWords) } }
    if inL p then beginChange s1 else s1

/-- R371: SSTORE is accepted only while nothing runs or waits. -/
def shadowStore (s : State) : State := if nvIdle s then startStore true s else raise 0x366 s

/-- A six-bit ring number. -/
def ringOf (n : Nat) : Fin 64 := ⟨n % 64, Nat.mod_lt _ (by decide)⟩

/-- R379: SLUGW opens the data phase of a ring. -/
def slugOpen (r : Nat) (s : State) : State :=
  { s with nv := { s.nv with dph := true, slugWords := [], cnt := 0, pring := BitVec.ofNat 6 r } }

/-- R379: SLUGR snapshots the current slot of a ring; an empty ring gives zeros and event 382h. -/
def slugRead (r : Nat) (s : State) : State :=
  let ws : List Word := match s.nv.ring.get (ringOf r) with
    | some c => wordsOfBytes (leBytes 8 c.value.toNat) ++ [lowWord c.seq, highWord c.seq]
    | none => List.replicate 6 0
  let s1 := { s with nv := { s.nv with readWords := some ws, cnt := 0, pring := BitVec.ofNat 6 r } }
  when (s.nv.ring.get (ringOf r)).isNone (raise 0x382) s1

/-- R379: a ring write is refused at its fourth word. -/
def slugRefused (r : Fin 64) (s : State) : Bool :=
  decide (r.val < 2) || hostOccupied s || (nextSlot r s).isNone

/-- R379: a word of the data phase; the fourth one closes it and requests the ring write. -/
def slugWord (v : Word) (s : State) : State :=
  let ws := s.nv.slugWords ++ [v]
  if ws.length < 4 then { s with nv := { s.nv with slugWords := ws, cnt := ws.length } }
  else
    let r := ringOf s.nv.pring.toNat
    let s1 := { s with nv := { s.nv with dph := false, slugWords := [], cnt := 0 } }
    if slugRefused r s then raise 0x381 s1
    else { s1 with nv := { s1.nv with host := some (.ring r (BitVec.ofNat 64 (ofLe (bytesOfWords ws)))) } }

/-- Table 12-10: a write of NVCTL: a data word of an open phase, else a command, which closes an open read phase. -/
def writeNvctl (v : Word) (s : State) : State :=
  if s.nv.dph then slugWord v s
  else
    let s1 := { s with nv := { s.nv with readWords := none, cnt := 0 } }
    match fieldOf v 12 4 with
    | 1 => nvCommit s1
    | 2 => emptyBuffer s1
    | 3 => shadowStore s1
    | 4 => slugOpen (fieldOf v 6 6) s1
    | 5 => slugRead (fieldOf v 6 6) s1
    | _ => raise 0x36C s1

/-- R379: a read of NVCTL: the next word of the read phase, which closes with the sixth; else the status form. -/
def readNvctl (s : State) : Word × State :=
  match s.nv.readWords with
  | some (w :: rest) =>
    (w, { s with nv := { s.nv with
      readWords := if rest.isEmpty then none else some rest, cnt := if rest.isEmpty then 0 else s.nv.cnt + 1 } })
  | _ => (nvctlWord s, s)

/-- R397: a write of NVCTL that asks for a commit: COMMIT, SSTORE, SLUGW, or the last word of a SLUGW. -/
def asksCommit (v : Word) (s : State) : Bool :=
  if s.nv.dph then decide (s.nv.slugWords.length = 3)
  else decide (fieldOf v 12 4 = 1 ∨ fieldOf v 12 4 = 3 ∨ fieldOf v 12 4 = 4)

/-- R397: in the st of PFAIL such a write is not performed and counts among the discarded host writes. -/
def countDiscarded (v : Word) (s : State) : State :=
  if s.mark = .pfail ∧ s.pwr.phase = .powerFail ∧ asksCommit v s then
    { s with pwr := { s.pwr with pfDiscarded := s.pwr.pfDiscarded + 1 } }
  else s

/-- A write of NVCTL on the bus, which VDDIO supplies (R428). -/
def nvctlAccess (v : Word) (s : State) : State := onBus (writeNvctl v) (when s.pwr.vddio (countDiscarded v) s)

/-- The word of a command: its CMD field replaced. -/
def withCmd (cmd : Nat) (w : Word) : Word := (w &&& 0x0FFF) ||| BitVec.ofNat 16 (cmd * 4096)

def execNvCommit (w : Word) (s : State) : Host.Outcome State Fault Refusal :=
  complete (nvctlAccess (withCmd 1 w) s)

def execNvDiscard (w : Word) (s : State) : Host.Outcome State Fault Refusal :=
  complete (nvctlAccess (withCmd 2 w) s)

def execShadowStoreCommand (w : Word) (s : State) : Host.Outcome State Fault Refusal :=
  complete (nvctlAccess (withCmd 3 w) s)

def execSlugWrite (w : Word) (s : State) : Host.Outcome State Fault Refusal :=
  complete (nvctlAccess (withCmd 4 w) s)

def execSlugDataWord (w : Word) (s : State) : Host.Outcome State Fault Refusal :=
  complete (nvctlAccess w s)

def execSlugRead (w : Word) (s : State) : Host.Outcome State Fault Refusal :=
  complete (nvctlAccess (withCmd 5 w) s)

def execSlugReadWord (s : State) : Host.Outcome State Fault Refusal :=
  complete (onBus (fun t => answer (readNvctl t)) s)

/-- R364, R12: a write of NVPROT. With BPL = 1 all of it is RWM, and outside MAKEREADY every write raises event 024h; with
BPL = 0 only one that would set BPL does. -/
def writeNvprot (v : Word) (s : State) : State :=
  let change := (bitOf v 15 != s.nv.bpl) || (s.nv.bpl && decide (fieldOf v 0 2 ≠ s.nv.bp.toNat))
  let s1 := if s.nv.bpl then s else setBp v s
  if !inMakeready s && s.nv.bpl then raise 0x24 s1 else rwmWrite change 0x34 v (setNvprot v) s1

/-! ## The end of an operation -/

/-- R339: a KEYST command that waited for its code 23h at PFAIL. -/
def keyInPowerFail (s : State) : State :=
  match s.key.op with
  | none => s
  | some (slot, ws) =>
    match s.sl.incr with
    | .done | .ringing _ => flushCheck (writeSlot slot.toNat ws s)
    | _ => { s with key := { s.key with op := none } }

/-- R83: an operation that ran at PFAIL has ended; no further one starts, and the sequence goes on. -/
def opEndedInPowerFail (s : State) : State :=
  let s1 := keyInPowerFail s
  powerFailNext { s1 with nv := { s1.nv with sealQueue := [] } }

/-- R360, R362, R72, R396: the end of an operation other than a shadow store. -/
def operationDone (s : State) : State :=
  match s.nv.running with
  | none | some (.store ..) => s
  | some op =>
    let s1 := finishOp op (reportAtRelease op s)
    if s.pwr.phase = .powerFail then opEndedInPowerFail s1 else s1

def execArrayOperationDone (s : State) : Host.Outcome State Fault Refusal := complete (operationDone s)

/-! ## Refresh (R366 to R368) -/

/-- R366: the interval has passed in RUN: the next page is to be examined, as soon as nothing else is queued (R362). -/
def refreshFallsDue (m : MarginReading) (s : State) : State :=
  { s with nv := { s.nv with refresh := some m }, bkp := { s.bkp with refreshTicks := 0 } }

def execRefreshPage (m : MarginReading) (s : State) : Host.Outcome State Fault Refusal :=
  complete (when (decide (s.pwr.phase = .run)) (refreshFallsDue m) s)

/-! ## Transactions (R372 to R375) -/

/-- The first byte of the region. -/
def regionBase (s : State) : Nat := 512 * s.sh.base.toNat

/-- R372: OPEN: the region is copied into staging; event 373h. -/
def txnOpen (s : State) : State :=
  raise 0x373 { s with sh := { s.sh with staging := some (cellRange 0 s.sh.sram (regionBase s) 512) } }

/-- The staging copy becomes the region, and ACTIVE clears; event 374h. -/
def mergeStaging (bs : List Byte) (s : State) : State :=
  raise 0x374 { s with sh := { s.sh with sram := cellWrites 0 s.sh.sram (regionBase s) bs, staging := none } }

/-- R375: a command is refused with REF and an event. -/
def refuseTxn (ev : Nat) (s : State) : State := raise ev { s with sh := { s.sh with ref := true } }

/-- R373, R407: CLOSE, signed or not. A signed close takes the SHA-256 core at once unless a legal digest is due on it. -/
def txnClose (bs : List Byte) (s : State) : State :=
  if !s.sh.sign then mergeStaging bs s
  else if bitOf s.key.pres 0 then
    { s with sh := { s.sh with busy := true, started := !digestDue s, closeBit := true, signKey := s.key.sign } }
  else refuseTxn 0x377 s

/-- R374: ABORT: staging is discarded; DISC, event 375h. -/
def txnAbort (s : State) : State := raise 0x375 { s with sh := { s.sh with staging := none, disc := true } }

/-- R375: a write that sets some of OPEN, CLOSE and ABORT. -/
def txnCommand (v : Word) (s : State) : State :=
  let n := flag (bitOf v 15) + flag (bitOf v 14) + flag (bitOf v 13)
  if n = 0 then s
  else if 1 < n || s.sh.busy then refuseTxn 0x376 s
  else
    match s.sh.staging with
    | none => if bitOf v 15 then txnOpen s else refuseTxn 0x376 s
    | some bs =>
      if bitOf v 15 then refuseTxn 0x376 s
      else if bitOf v 14 then txnClose bs s
      else txnAbort s

/-- Table 12-13, R474: a write of TXNCTL: the W1C bits, SIGN, BASE unless a transaction is open, the command. -/
def writeTxnctl (v : Word) (s : State) : State :=
  let s1 := { s with sh := { s.sh with
    disc := s.sh.disc && !bitOf v 9, ref := s.sh.ref && !bitOf v 8, sign := bitOf v 12
    base := if s.sh.staging.isSome then s.sh.base else BitVec.ofNat 3 (fieldOf v 0 3) } }
  txnCommand v s1

def execTxnOpen (w : Word) (s : State) : Host.Outcome State Fault Refusal :=
  complete (onBus (writeTxnctl (w ||| 0x8000)) s)

/-- CLOSE without SIGN: bit 14 set, bit 12 clear. -/
def execTxnClose (w : Word) (s : State) : Host.Outcome State Fault Refusal :=
  complete (onBus (writeTxnctl ((w ||| 0x4000) &&& 0xEFFF)) s)

/-- CLOSE with SIGN: bits 14 and 12 set. -/
def execTxnSignedClose (w : Word) (s : State) : Host.Outcome State Fault Refusal :=
  complete (onBus (writeTxnctl (w ||| 0x5000)) s)

def execTxnAbort (w : Word) (s : State) : Host.Outcome State Fault Refusal :=
  complete (onBus (writeTxnctl (w ||| 0x2000)) s)

/-- R373, R417: the MAC over staging bytes 0 to 479 stands at bytes 480 to 511; the copy merges; events 374h and 375h. -/
def signDone (s : State) : State :=
  match s.sh.staging with
  | some bs =>
    if s.sh.busy then
      let mac := beBytes 32 (hmacSha256 s.sh.signKey (bs.take 480)).toNat
      let s1 := mergeStaging (bs.take 480 ++ mac)
        { s with sh := { s.sh with busy := false, started := false, closeBit := false } }
      raise 0x375 s1
    else s
  | none => s

/-- R407: a signed close that the core has not taken up waits for a legal digest that is due. -/
def execTxnSignDone (s : State) : Host.Outcome State Fault Refusal :=
  complete (when (sysLive s && (s.sh.started || !digestDue s)) signDone s)

/-! ## The check of the Imprint log (R388) -/

/-- Table 12-14: a write of IMPCTL. -/
def writeImpctl (v : Word) (s : State) : State :=
  if bitOf v 15 ∧ s.imp.verify.isNone then { s with imp := { s.imp with verify := some s.imp.next } } else s

def execImprintVerify (w : Word) (s : State) : Host.Outcome State Fault Refusal :=
  complete (onBus (writeImpctl (w ||| 0x8000)) s)

/-- R388: the entry at a position fails its CRC or carries another SEQ. -/
def entryBad (s : State) (n : Nat) : Bool :=
  let b := nvReadBytes s (0x10000 + 16 * n) 16
  decide (crc16 (b.take 14) ≠ BitVec.ofNat 16 (ofLe (b.drop 14))) || decide (ofLe (b.take 4) ≠ n)

def verifyDone (s : State) : State :=
  match s.imp.verify with
  | none => s
  | some n =>
    match (List.range n).find? (entryBad s) with
    | some f =>
      raise 0x395 { s with imp := { s.imp with verify := none, verr := true, first := BitVec.ofNat 13 f } }
    | none => raise 0x394 { s with imp := { s.imp with verify := none, verr := false, first := 0x1FFF } }

def execImprintVerifyDone (s : State) : Host.Outcome State Fault Refusal := complete (when (sysLive s) verifyDone s)

end Sys2Proof.Machine
end

