-- ==== Sys2Proof/Machine/KeyUnit.lean ====
section
/-! DEFINITION. Machine/KeyUnit.lean: KEYST and its commands (R338, R339, R349), the slot that a legal command writes, the
check value of code 60h (R409). -/

namespace Sys2Proof.Machine

/-! ## KEYST commands -/

/-- R338: a data word; the phase closes when the slot is full. -/
def keyData (v : Word) (s : State) : State :=
  let ws := s.key.stage ++ [v]
  { s with key := { s.key with stage := ws, dph := decide (ws.length < slotWords s.key.stageSlot.toNat) } }

/-- R338: the command is malformed: KEY, CMD, bit [3], SLOT, or a READ of another slot than HOST. -/
def keyMalformed (v : Word) : Bool :=
  let cmd := fieldOf v 12 4
  decide (fieldOf v 4 8 ≠ 0x96 ∨ cmd = 0 ∨ 5 < cmd ∨ 4 ≤ fieldOf v 0 4) ||
    (decide (cmd = 4) && decide (fieldOf v 0 3 ≠ 3))

/-- R339, R332: the reasons for which a COMMIT is refused with event 353h. -/
def commitBad (slot : Nat) (s : State) : Bool :=
  decide (s.key.stageSlot.toNat ≠ slot) || decide (s.key.stage.length < slotWords slot) ||
  s.key.stage.all (fun w => decide (w = 0)) || s.key.clear || s.key.op.isSome

/-- LOAD: staging is cleared and the data phase opens for a slot. -/
def keyLoad (slot : Nat) (s : State) : State :=
  if s.key.op.isSome then raise 0x353 s
  else
    { s with key := { s.key with
        stage := [], dph := true, slot := BitVec.ofNat 3 slot, stageSlot := BitVec.ofNat 3 slot } }

/-- R339: a COMMIT (with its words) or an ERASE that passed its checks: slots 0 to 2 are a legal change, which keeps BUSY
until the slot is written; HOST is written at once. -/
def keyWrite (slot : Nat) (ws : Option (List Word)) (s : State) : State :=
  if slot = 3 then writeSlot 3 ws s
  else if !legalRoom (if slot = 1 then 1 else 0) s then raise 0x14 s
  else
    let s1 := beginChange s
    { s1 with key := { s1.key with op := some (BitVec.ofNat 3 slot, ws) } }

/-- LOAD, COMMIT and ERASE. -/
def keyChange (cmd slot : Nat) (s : State) : State :=
  if slot < 3 ∧ !inMakeready s then raise 0x24 s
  else if slot < 3 ∧ isClosing s then raise 0x14 s
  else
    match cmd with
    | 1 => keyLoad slot s
    | 2 => if commitBad slot s then raise 0x353 s else keyWrite slot (some (s.key.stage.take (slotWords slot))) s
    | _ => if s.key.op.isSome then raise 0x353 s else keyWrite slot none s

/-- R338, Table 11-6: a write of KEYST: a data word of an open phase, else a command, which closes the read phase. -/
def writeKeyst (v : Word) (s : State) : State :=
  if s.key.dph then keyData v s
  else
    let s1 := { s with key := { s.key with rph := false, readPos := 0 } }
    let slot := fieldOf v 0 3
    if keyMalformed v then raise 0x353 s1
    else
      match fieldOf v 12 4 with
      | 4 => { s1 with key := { s1.key with rph := true, slot := 3 } }
      | 5 => zeroize 0x20 s1
      | cmd => keyChange cmd slot s1

/-- R338, R349: a read of KEYST: the next HOST word of the read phase, else the status form. -/
def readKeyst (s : State) : Word × State :=
  if s.key.rph then
    let p := s.key.readPos
    ((s.key.host >>> (240 - 16 * p)).setWidth 16,
      { s with key := { s.key with rph := decide (p < 15), readPos := if p < 15 then p + 1 else 0 } })
  else (keystWord s, s)

def execKeyDataWord (w : Word) (s : State) : Host.Outcome State Fault Refusal :=
  complete (onBus (writeKeyst w) s)

def execKeyLoad (w : Word) (s : State) : Host.Outcome State Fault Refusal :=
  complete (onBus (writeKeyst (withCmd 1 w)) s)

def execKeyCommit (w : Word) (s : State) : Host.Outcome State Fault Refusal :=
  complete (onBus (writeKeyst (withCmd 2 w)) s)

def execKeyErase (w : Word) (s : State) : Host.Outcome State Fault Refusal :=
  complete (onBus (writeKeyst (withCmd 3 w)) s)

def execKeyRead (w : Word) (s : State) : Host.Outcome State Fault Refusal :=
  complete (onBus (writeKeyst (withCmd 4 w)) s)

def execKeyHostRead (s : State) : Host.Outcome State Fault Refusal :=
  complete (onBus (fun t => answer (readKeyst t)) s)

def execKeyZeroize (w : Word) (s : State) : Host.Outcome State Fault Refusal :=
  complete (onBus (writeKeyst (withCmd 5 w)) s)

/-- R339: the increment has committed: the slot is written and BUSY clears; a reset held behind the command is then taken. -/
def slotWritten (s : State) : State :=
  match s.key.op with
  | some (slot, ws) => if changeFree s then writeSlot slot.toNat ws s else s
  | none => s

def execKeySlotWritten (s : State) : Host.Outcome State Fault Refusal := complete (when (sysLive s) slotWritten s)

/-- R409: the AES core computes the check value in the guard time, and code 60h is queued; held until the queue has places
(R385). -/
def execLinkCheckValue (s : State) : Host.Outcome State Fault Refusal :=
  complete (when (sysLive s && placesFree s.key.check.length s) flushCheck s)

end Sys2Proof.Machine
end

