-- ==== Sys2Proof/Machine/Cases.lean ====
section
/-! DEFINITION. Machine/Cases.lean: CASECTL: copies and switches of coefficient cases, their stores and cross-fades (R223 to
R233), and GRPDLY (R237). -/

namespace Sys2Proof.Machine

/-! ## Case access -/

/-- A switch of the channel fades or waits for its boundary. -/
def fadeOpen (k : Chan) (s : State) : Bool := (s.cs.ch.get k).fade.isSome

/-- Table 08-1: a write to a case of a channel is accepted, but for the RWM rule of the legal class. -/
def caseAccepts (k : Chan) (lower : Bool) (s : State) : Bool :=
  let active := decide ((s.cs.ch.get k).act = lower)
  if isLegal k s then !active && !loadBusy k s
  else if active then atRest k s && !formeLoading k s
  else !fading k s && !formeLoading k s

/-- R224: a copy lasts 520 st at most; it is in progress for 8 engine turns (log entry 54). -/
def copyTurns : Nat := 8

/-- R224: CPY: the active case is read (R139) and copied to the inactive one, and the copy is in progress. A copy that is
still in progress then gives way: how two of them share the unit the spec does not say (DESIGN CHOICE, log entry 54). -/
def caseCopy (k : Chan) (s : State) : State :=
  let c := s.cs.ch.get k
  if caseAccepts k (!c.act) s && (!isLegal k s || inMakeready s) then
    let s1 := modCs k (fun c => setCase (!c.act) (activeCase c) c) (readCase k s)
    { s1 with cs := { s1.cs with copy := some { ch := k, lower := !c.act, left := copyTurns }, copyBit := true } }
  else raise (csE k 1) s

/-- R224: a copy into the named case of the channel is in progress. -/
def copying (k : Chan) (lower : Bool) (s : State) : Bool := s.cs.copy.any fun c => decide (c.ch = k) && (c.lower == lower)

/-! ## Switches -/

/-- Table 08-2, orders 3 to 6. A switch that waits for its boundary b counts as a cross-fade in progress: Table 08-9 and R246
date the fade from b, and no rule says what a second switch before b does (DESIGN CHOICE, log entry 56). -/
def switchRefused (k : Chan) (s : State) : Bool :=
  let runs := !atRest k s
  (isLegal k s && runs) || loadBusy k s || anyCaseStore s ||
  (!isLegal k s && runs && (fadeOpen k s || decide (s.cs.xflen.toNat < 4 ∨ 12 < s.cs.xflen.toNat)))

/-- R225 to R227, R232: a switch of channel CASECTL.CH to TGT. With TGT already active R226 says that nothing changes, R236 that
the delays are recomputed at every completed switch: they are (DESIGN CHOICE, log entry 56). -/
def caseSwitch (k : Chan) (s : State) : State :=
  if isLegal k s && !inMakeready s then raise 0x24 s
  else if isLegal k s && (isClosing s || !legalRoom 1 s) then raise 0x14 s
  else if switchRefused k s then raise (csE k 1) s
  else if isLegal k s then startCaseStore k s.cs.tgt true false s
  else if atRest k s then
    raise (csE k 0) (recompute k (modCs k (fun c => { c with act := s.cs.tgt }) s))
  else
    modCs k (fun c => { c with
      fade := some { tgt := s.cs.tgt, xflen := s.cs.xflen.toNat, begun := false, frames := 0 } }) s

/-- Table 08-8, R248: a write of CASECTL: its RW fields, then CPY, then SW. -/
def writeCasectl (v : Word) (s : State) : State :=
  let s1 := { s with cs := { s.cs with
    tgt := bitOf v 14, sel := BitVec.ofNat 2 (fieldOf v 12 2), xflen := BitVec.ofNat 4 (fieldOf v 8 4) } }
  let k := chanOf s1.cs.sel
  when (bitOf v 15) (caseSwitch k) (when (bitOf v 7) (caseCopy k) s1)

def execCaseCopy (w : Word) (s : State) : Host.Outcome State Fault Refusal :=
  complete (onBus (writeCasectl (w ||| 0x0080)) s)

def execCaseSwitch (w : Word) (s : State) : Host.Outcome State Fault Refusal :=
  complete (onBus (writeCasectl (w ||| 0x8000)) s)

/-- A case store whose last page has committed. -/
def isCaseKind : StoreKind → Bool
  | .case .. => true
  | _ => false

/-- Sequence 08-1, step 7: ACT = TGT and event 140h + 4k for a switch; code 20h; RSTF cleared (R231). A preset's store makes
no switch and raises no event (R228). -/
def caseStored (l : LegalStore) (s : State) : State :=
  match l.kind with
  | .case k _ _ tgt switch _ =>
    let s1 := modCs k (fun c => { c with act := if switch then tgt else c.act, rstf := false }) (endStore l s)
    let s2 := when switch (raise (csE k 0)) (recompute k s1)
    logNow (storeEntry l.kind).1 (storeEntry l.kind).2 s2
  | _ => s

/-- Step 7 is held until the queue has a place for code 20h (R385). -/
def execCaseStoreComplete (s : State) : Host.Outcome State Fault Refusal :=
  if sysLive s then
    match committedStore isCaseKind s with
    | some l => complete (when (placesFree 1 s) (caseStored l) s)
    | none => complete s
  else complete s

/-- R232: the boundary of frame N has been reached. -/
def fadeDue (k : Chan) (s : State) : Bool :=
  match (s.cs.ch.get k).fade with
  | some f => f.begun && decide (2 ^ f.xflen ≤ f.frames)
  | none => false

def execCrossfadeEnd (k : Chan) (s : State) : Host.Outcome State Fault Refusal :=
  complete (when (sysLive s && fadeDue k s) (finishFade k) s)

/-! ## GRPDLY (R237) -/

/-- Table 08-13: a write of GRPDLY. -/
def writeGrpdly (v : Word) (s : State) : State :=
  { s with cs := { s.cs with gdOut := bitOf v 2, gdCh := BitVec.ofNat 2 (fieldOf v 0 2), gdPos := 0 } }

def execGrpdlySelect (w : Word) (s : State) : Host.Outcome State Fault Refusal :=
  complete (onBus (writeGrpdly w) s)

/-- R235, R237: delay and settle count of the selected stream, the count saturated at FFFFh; 0 while VALID = 0. -/
def selectedDelay (s : State) : W32 × Word :=
  let c := s.fm.ch.get (chanOf s.cs.gdCh)
  if c.valid then
    let d := if s.cs.gdOut then c.gd.get 2 else c.gd.get 0
    let u := if s.cs.gdOut then c.gd.get 3 else c.gd.get 1
    (d, BitVec.ofNat 16 (min 0xFFFF u.toNat))
  else (0, 0)

/-- R237: a read of GRPDLY: the word and what the read changes. -/
def readGrpdly (s : State) : Word × State :=
  if s.cs.gdPos = 0 then
    let d := selectedDelay s
    (lowWord d.1, { s with cs := { s.cs with gdSnap := some d, gdPos := 1 } })
  else
    let d := s.cs.gdSnap.getD (selectedDelay s)
    if s.cs.gdPos = 1 then (highWord d.1, { s with cs := { s.cs with gdPos := 2 } })
    else (d.2, { s with cs := { s.cs with gdPos := 0 } })

def execGrpdlyRead (s : State) : Host.Outcome State Fault Refusal :=
  complete (onBus (fun t => answer (readGrpdly t)) s)

end Sys2Proof.Machine
end

