-- ==== Sys2Proof/Machine/Window.lean ====
section
/-! DEFINITION. Machine/Window.lean: WINSEL, WINADL, WINADH and WINDAT: the sixteen window arrays as they read and as a write
reaches them (R115 to R120, R133, R134). -/

namespace Sys2Proof.Machine

/-! ## Selection and address (R115, R116) -/

/-- R119: a staged partial element is discarded: PART and event 026h. -/
def discardStage (s : State) : State :=
  match s.bus.stage with
  | none => s
  | some _ => raise 0x26 { s with bus := { s.bus with stage := none, part := true } }

/-- R115: a write of WINSEL. -/
def writeWinsel (v : Word) (s : State) : State :=
  let s1 := discardStage s
  { s1 with bus := { s1.bus with
      hold := bitOf v 8, sub := BitVec.ofNat 4 (fieldOf v 4 4), array := BitVec.ofNat 4 (fieldOf v 0 4)
      addr := 0, snap := none } }

def execWindowSelect (v : Word) (s : State) : Host.Outcome State Fault Refusal :=
  complete (onBus (writeWinsel v) s)

/-- R115: a write of WINADL or of WINADH; the other address bits stay. -/
def writeWinadr (high : Bool) (v : Word) (s : State) : State :=
  let s1 := discardStage s
  let a := s1.bus.addr
  { s1 with bus := { s1.bus with
      addr := if high then v.setWidth 8 ++ a.setWidth 16 else (a >>> 16).setWidth 8 ++ v } }

def execWindowAddressWrite (high : Bool) (v : Word) (s : State) : Host.Outcome State Fault Refusal :=
  complete (onBus (writeWinadr high v) s)

/-- R116: a WINDAT access moves the address on, unless HOLD = 1. -/
def advanceWindow (s : State) : State :=
  { s with bus := { s.bus with addr := if s.bus.hold then s.bus.addr else s.bus.addr + 1 } }

/-- The channel that WINSEL.SUB selects. -/
def winChan (s : State) : Chan := chanOf (BitVec.ofNat 2 (fieldOf s.bus.sub 0 2))

/-- The station that WINSEL.SUB selects. -/
def winStation (s : State) : Station := ⟨s.bus.sub.toNat, s.bus.sub.isLt⟩

/-! ## The arrays as they read (Table 04-5) -/

/-- Word `i` of consecutive words of a number, low word first. -/
def wordAt (v i : Nat) : Word := BitVec.ofNat 16 (v / 65536 ^ i)

/-- R358: an NVARR word: FFFFh on a page that is being programmed, else as corrected. -/
def nvWindowWord (s : State) (w : Nat) : Word := if busyPage s = some (w / 32) then 0xFFFF else (nvRead s w).1

/-- R50, Table 04-5: word `a` of DIGEST. -/
def digestWord (s : State) (a : Nat) : Word :=
  if a < 16 then (s.sl.digest >>> (240 - 16 * a)).setWidth 16
  else if a < 18 then wordAt s.sl.counter.toNat (a - 16)
  else wordAt (sealRecord s).fails.toNat (a - 18)

/-- R372: SHADOW word `w` lies in the region of an open transaction. -/
def inRegion (s : State) (w : Nat) : Bool := s.sh.staging.isSome && decide (w / 256 = s.sh.base.toNat)

/-- R372: SHADOW word `w`: the staging copy inside the region of an open transaction, else the SRAM. -/
def shadowWord (s : State) (w : Nat) : Word :=
  let b := fun a => if inRegion s w then (s.sh.staging.getD []).getD (a - regionBase s) 0 else shadowByte s a
  b (2 * w + 1) ++ b (2 * w)

/-- Table 10-2: CAP of step C, and the capabilities that both ends have (R301). -/
def ownCap : Word := 7

/-- Table 10-8: word `i` of an instance on a HUB. -/
def hubNodeWord (s : State) (a : Station) (i : Nat) : Word :=
  if a = 0 then (s.gl.queue[i]?).getD 0
  else
    let n := s.gl.node.get a
    if i < 14 then (n.words[i]?).getD 0
    else if i = 14 then BitVec.ofNat 16 n.sentDly
    else n.minor ++ n.caps

/-- Table 10-9: word `i` of an instance on a NODE. -/
def ownNodeWord (s : State) (a : Station) (i : Nat) : Word :=
  if a ≠ 0 then 0
  else if i < 2 then wordAt s.gl.bSfn.toNat i
  else if i < 5 then wordAt s.gl.bHt.toNat (i - 2)
  else
    match i with
    | 5 => s.gl.hubVer
    | 6 => s.gl.hubCap &&& ownCap
    | 7 => BitVec.ofNat 16 s.gl.adv
    | 8 => BitVec.ofInt 16 s.gl.e
    | _ => 0

/-- The word stored at word `a` of the selected instance, `a` in range. -/
def windowWord (s : State) (a : Nat) : Word :=
  let k := winChan s
  match s.bus.array.toNat with
  | 0 => groupBits s.ev.sticky a
  | 1 => groupBits s.ev.enable a
  | 2 => wordAt ((s.ev.count[a / 3]?).getD 0).toNat (a % 3)
  | 3 => wordAt (((s.fm.ch.get k).edit[a / 2]?).getD 0).toNat (a % 2)
  | 4 => wordAt (cellRead 0 (s.cs.ch.get k).upper (a / 2)).toNat (a % 2)
  | 5 => wordAt (cellRead 0 (s.cs.ch.get k).lower (a / 2)).toNat (a % 2)
  | 6 => wordAt (((s.cal.ch.get k).buf[a / 2]?).getD 0).toNat (a % 2)
  | 7 => wordAt (((s.kern.ch.get k).applied[a / 2]?).getD 0).toNat (a % 2)
  | 8 => if isNode s then ownNodeWord s (winStation s) a else hubNodeWord s (winStation s) a
  | 9 => wordAt ((s.fk.staging[a / 2]?).getD 0).toNat (a % 2)
  | 10 => nvWindowWord s a
  | 11 => shadowWord s a
  | 12 => nvWindowWord s (0x8000 + a)
  | 13 => if a < 2 then wordAt s.tone.resM.toNat a else if a = 2 then s.tone.resP else s.tone.resNo
  | 14 => if (s.fm.ch.get k).valid then wordAt (((s.fm.ch.get k).gd[a / 2]?).getD 0).toNat (a % 2) else 0
  | _ => digestWord s a

/-- The element at word `a` as stored. -/
def windowElement (s : State) (a : Nat) : List Word :=
  let e := elementAt s.bus.array a
  (List.range e.2).map fun i => windowWord s (e.1 + i)

/-! ## Reads (R119, R120) -/

/-- R120: the entry at a position fails its CRC-16. -/
def entryCrcBad (s : State) (n : Nat) : Bool :=
  let b := nvReadBytes s (0x10000 + 16 * n) 16
  decide (crc16 (b.take 14) ≠ BitVec.ofNat 16 (ofLe (b.drop 14)))

/-- WINST.BADCHK. -/
def setBadchk (b : Bool) (s : State) : State := { s with bus := { s.bus with badchk := b } }

/-- R120, R358: what a read of NVARR word `w` shows; an injection shows the word with errors (R149). -/
def nvReadEffect (w : Nat) (s : State) : State :=
  if busyPage s = some (w / 32) then raise 0x361 (setBadchk true s)
  else
    let bad := shows 0x369 (decide (2 ≤ (nvRead s w).2)) s
    edge 0x369 (decide (2 ≤ (nvRead s w).2)) (edge 0x368 (decide ((nvRead s w).2 = 1)) (setBadchk bad s))

/-- R120, R358: what a read of IMPRINT word `a` shows. -/
def imprintReadEffect (a : Nat) (s : State) : State :=
  if busyPage s = some (1024 + a / 32) then raise 0x361 (setBadchk true s)
  else when (decide (a % 8 = 0)) (setBadchk (entryCrcBad s (a / 8))) s

/-- What a read of the stored word `a` shows besides its data; the memories of Table 05-2 are checked by parity (R139). -/
def readEffect (a : Nat) (s : State) : State :=
  match s.bus.array.toNat with
  | 4 => parityRead (4 + (winChan s).val) s
  | 5 => parityRead (8 + (winChan s).val) s
  | 7 => parityRead 14 s
  | 10 => nvReadEffect a s
  | 12 => imprintReadEffect a s
  | _ => s

/-- R117: an access out of range. -/
def outOfRange (s : State) : State := raise 0x23 { s with bus := { s.bus with range := true } }

/-- R119: the first word of a longer element snapshots it; a later word comes from the snapshot held. -/
def readElement (s : State) : Word × State :=
  let a := winAddr s
  let e := elementAt s.bus.array a
  if e.2 = 1 then (windowWord s a, readEffect a s)
  else if a = e.1 then
    let snap : WinSnap := { array := s.bus.array, sub := s.bus.sub, base := e.1, words := windowElement s a }
    let s1 := readEffect a s
    (windowWord s a, { s1 with bus := { s1.bus with snap := some snap } })
  else
    match snapHere s with
    | some ws => (ws.getD (a - e.1) 0, s)
    | none => (windowWord s a, readEffect a s)

/-- A read of WINDAT: the word and what the read changes. An occurrence in the st of the read, such as event 026h of a partial
element that the read discards, is not in the word or in a snapshot (R130, R154). -/
def windatRead (s : State) : Word × State :=
  let s1 := { s with bus := { s.bus with stage := none } }
  let r := if winInRange s1 then readElement s1 else (0, outOfRange s1)
  let s2 := { r.2 with bus := { r.2.bus with stage := s.bus.stage } }
  (r.1, advanceWindow (discardStage s2))

def execWindatRead (s : State) : Host.Outcome State Fault Refusal :=
  complete (onBus (fun t => answer (windatRead t)) s)

/-! ## Writes (R118, R119) -/

/-- A write refused with an event: ROREF. -/
def refuseWindow (ev : Nat) (s : State) : State := raise ev { s with bus := { s.bus with roref := true } }

/-- R118, R309: the selected instance is never writable. -/
def neverWritable (s : State) : Bool :=
  match s.bus.array.toNat with
  | 7 | 12 | 13 | 14 | 15 => true
  | 8 => isNode s || decide (s.bus.sub ≠ 0)
  | _ => false

/-- Table 08-1: the event of a refused write to a case; only the inactive case of a legal-class channel is RWM. -/
def caseRefusal (k : Chan) (lower : Bool) (s : State) : Option Nat :=
  if isLegal k s && decide ((s.cs.ch.get k).act ≠ lower) && !inMakeready s then some 0x24
  else if caseAccepts k lower s && !copying k lower s then none
  else some 0x25

/-- R118: the event of a refusal of the selected array for word `a`; none where it takes the write. RWM rules come first
(R12, R194, R223, R255, R323). -/
def windowRefusal (s : State) (a : Nat) : Option Nat :=
  let k := winChan s
  let rwm := !inMakeready s
  if neverWritable s then some 0x25
  else
    match s.bus.array.toNat with
    | 3 => if isLegal k s && rwm then some 0x24 else if formeLoading k s then some 0x25 else none
    | 4 => caseRefusal k false s
    | 5 => caseRefusal k true s
    | 6 => if rwm then some 0x24 else if calBusy k s then some 0x25 else none
    | 8 => if s.gl.job.isSome then some 0x25 else none
    | 9 => if rwm then some 0x24 else none
    | 11 => if inRegion s a && s.sh.busy then some 0x25 else none
    | _ => none

/-- A group's bits replaced among the 1,024. -/
def putGroup (v : BitVec 1024) (w : Word) (g : Nat) : BitVec 1024 := (v &&& ~~~(placeGroup 0xFFFF g)) ||| placeGroup w g

/-- A loaded word in its place by in-page address. -/
def putWord (i : Nat) (v : Word) : List (Nat × Word) → List (Nat × Word)
  | [] => [(i, v)]
  | (j, w) :: rest => if i < j then (i, v) :: (j, w) :: rest else if i = j then (i, v) :: rest else (j, w) :: putWord i v rest

/-- R357: a load of the page buffer. -/
def loadBuffer (a : Nat) (v : Word) (s : State) : State :=
  let i := a % 32
  let again := s.nv.bufWords.any fun x => decide (x.1 = i)
  let page := s.nv.bufPage.getD (BitVec.ofNat 11 (a / 32))
  when again (raise 0x367)
    { s with nv := { s.nv with bufPage := some page, bufWords := putWord i v s.nv.bufWords } }

/-- R372: a write of SHADOW word `w`: the staging copy inside the region of an open transaction, else the SRAM. -/
def writeShadow (w : Nat) (v : Word) (s : State) : State :=
  let bs := leBytes 2 v.toNat
  if inRegion s w then
    let at_ := 2 * w - regionBase s
    let old := s.sh.staging.getD []
    { s with sh := { s.sh with staging := some (old.take at_ ++ bs ++ old.drop (at_ + 2)) } }
  else { s with sh := { s.sh with sram := cellWrites 0 s.sh.sram (2 * w) bs } }

/-- A write of a one-word element at word `a`, as the array takes it (R140, R309, R357, R372). -/
def putSingle (a : Nat) (v : Word) (s : State) : State :=
  match s.bus.array.toNat with
  | 0 => { s with ev := clearSticky (placeGroup v a) s.ev }
  | 1 => { s with ev := { s.ev with enable := putGroup s.ev.enable (v &&& groupMask (isNode s) a) a } }
  | 8 => { s with gl := { s.gl with queue := s.gl.queue.setIfInBounds a v } }
  | 10 => loadBuffer a v s
  | 11 => writeShadow a v s
  | _ => s

/-- R119: element `i` of the selected instance takes its words in one st. -/
def putElement (i : Nat) (ws : List Word) (s : State) : State :=
  let k := winChan s
  let v : W32 := joinWords (ws.getD 0 0) (ws.getD 1 0)
  match s.bus.array.toNat with
  | 2 =>
    let c := BitVec.ofNat 48 (ofLe (bytesOfWords (ws.take 3)))
    { s with ev := { s.ev with count := s.ev.count.setIfInBounds i c } }
  | 3 => modFm k (fun c => { c with edit := c.edit.setIfInBounds i v }) s
  | 4 => modCs k (fun c => { c with upper := cellWrite 0 c.upper i v }) s
  | 5 => modCs k (fun c => { c with lower := cellWrite 0 c.lower i v }) s
  | 6 => modCal k (fun c => { c with buf := c.buf.setIfInBounds i v }) s
  | 9 => { s with fk := { s.fk with staging := s.fk.staging.setIfInBounds i v } }
  | _ => s

/-- The words of the element at base `b` with the staged ones in their places. What an element takes for words that were never
staged R119 does not say: the stored words stay (DESIGN CHOICE, log entry 50). -/
def stagedElement (b : Nat) (staged : List (Nat × Word)) (s : State) : List Word :=
  (List.range (elementAt s.bus.array b).2).map fun i =>
    match staged.find? (fun x => decide (x.1 = i)) with
    | some x => x.2
    | none => windowWord s (b + i)

/-- R119: word `a` of a longer element is staged; its last word writes the element. -/
def stageWord (a : Nat) (v : Word) (s : State) : State :=
  let e := elementAt s.bus.array a
  let held := match s.bus.stage with
    | some g => g.words
    | none => []
  let words := putWord (a - e.1) v held
  if a + 1 = e.1 + e.2 then
    putElement (e.1 / e.2) (stagedElement e.1 words s) { s with bus := { s.bus with stage := none } }
  else { s with bus := { s.bus with stage := some { base := e.1, words := words } } }

/-- R119: a write outside the staged element discards it. -/
def leaveStage (s : State) : State :=
  match s.bus.stage with
  | some g =>
    if winInRange s ∧ (elementAt s.bus.array (winAddr s)).1 = g.base then s else discardStage s
  | none => s

/-- R117 to R119: a write of WINDAT. A write to a region that is being signed also raises event 378h (R373). -/
def windatWrite (v : Word) (s : State) : State :=
  let s1 := leaveStage s
  let a := winAddr s1
  let s2 :=
    if !winInRange s1 then outOfRange s1
    else
      match windowRefusal s1 a with
      | some ev => when (decide (s1.bus.array = 11)) (raise 0x378) (refuseWindow ev s1)
      | none => if (elementAt s1.bus.array a).2 = 1 then putSingle a v s1 else stageWord a v s1
  advanceWindow s2

/-- WINSEL.ARRAY selects one of the arrays. -/
def selects (arrays : List (BitVec 4)) (s : State) : Bool := arrays.contains s.bus.array

/-- A WINDAT write to the arrays that a row names. -/
def arrayWrite (arrays : List (BitVec 4)) (v : Word) (s : State) : State :=
  when (selects arrays s) (onBus (windatWrite v)) s

def execEvstatClear (v : Word) (s : State) : Host.Outcome State Fault Refusal := complete (arrayWrite [0] v s)

def execEvenWrite (v : Word) (s : State) : Host.Outcome State Fault Refusal := complete (arrayWrite [1] v s)

def execCounterPreset (v : Word) (s : State) : Host.Outcome State Fault Refusal := complete (arrayWrite [2] v s)

def execFormeEditWrite (v : Word) (s : State) : Host.Outcome State Fault Refusal := complete (arrayWrite [3] v s)

def execCaseWrite (v : Word) (s : State) : Host.Outcome State Fault Refusal := complete (arrayWrite [4, 5] v s)

def execCalsetWrite (v : Word) (s : State) : Host.Outcome State Fault Refusal := complete (arrayWrite [6] v s)

def execFkprogWrite (v : Word) (s : State) : Host.Outcome State Fault Refusal := complete (arrayWrite [9] v s)

def execGlnodeQueueWrite (v : Word) (s : State) : Host.Outcome State Fault Refusal := complete (arrayWrite [8] v s)

def execNvarrLoad (v : Word) (s : State) : Host.Outcome State Fault Refusal := complete (arrayWrite [10] v s)

def execShadowWrite (v : Word) (s : State) : Host.Outcome State Fault Refusal := complete (arrayWrite [11] v s)

/-- R117, R118: a write that no array takes: the selected instance is never writable, or the word is out of range. -/
def execNeverWritableArrayWrite (v : Word) (s : State) : Host.Outcome State Fault Refusal :=
  complete (when (neverWritable s || !winInRange s) (onBus (windatWrite v)) s)

/-- R474: a write of WINST clears RANGE, ROREF and PART where written as 1. -/
def writeWinst (v : Word) (s : State) : State :=
  { s with bus := { s.bus with
      range := s.bus.range && !bitOf v 15, roref := s.bus.roref && !bitOf v 14, part := s.bus.part && !bitOf v 13 } }

end Sys2Proof.Machine
end

