-- ==== Sys2Proof/Machine/Galley.lean ====
section
/-! DEFINITION. Machine/Galley.lean: the Galley link (chapter 10): frames and their check values, origins and beacons, the
states of a NODE, uplinks, ranging, joining and loss, remote register access, GLCTL and GLRA. -/

namespace Sys2Proof.Machine

/-! ## Frames (R288, R290 to R292) -/

/-- Table 10-1. -/
def headerWord (type addr len : Nat) : Word := BitVec.ofNat 16 (type * 8192 + addr * 512 + len * 16)

/-- R292, Table 10-6: the MAC; NN is given where the table names it. -/
def frameMac (key : BitVec 128) (sn sfn : W32) (nn : Option W32) (header : Word) (body : List Word) : W32 :=
  let n := match nn with
    | some v => beBytes 4 v.toNat
    | none => []
  let msg := beBytes 4 sn.toNat ++ beBytes 4 sfn.toNat ++ n ++ bytesOfWordsHigh (header :: body)
  BitVec.ofNat 32 (ofBe ((cmac key msg).take 4))

/-- R290: CRC-16 over header, body and MAC in sending order; the MAC's low word goes first (R288). -/
def frameCrc (header : Word) (body : List Word) (mac : W32) : Word :=
  crc16 (bytesOfWordsHigh (header :: body ++ [lowWord mac, highWord mac]))

/-- A frame with its MAC and CRC. -/
def makeFrame (key : BitVec 128) (sn sfn : W32) (nn : Option W32) (header : Word) (body : List Word) : Frame :=
  let mac := frameMac key sn sfn nn header body
  { header := header, body := body, mac := mac, crc := frameCrc header body mac }

/-- The fields of a header. -/
def frameType (f : Frame) : Nat := fieldOf f.header 13 3
def frameAddr (f : Frame) : Nat := fieldOf f.header 9 4

/-- Word `i` of a body, 0 beyond its end. -/
def bodyWord (f : Frame) (i : Nat) : Word := f.body.getD i 0

/-- A two-word value of a body, low word first. -/
def bodyPair (f : Frame) (i : Nat) : W32 := joinWords (bodyWord f i) (bodyWord f (i + 1))

/-- R290: the CRC of a frame is correct. -/
def crcGood (f : Frame) : Bool := decide (frameCrc f.header f.body f.mac = f.crc)

/-- R292: the MAC of a frame is correct. -/
def macGood (key : BitVec 128) (sn sfn : W32) (nn : Option W32) (f : Frame) : Bool :=
  decide (frameMac key sn sfn nn f.header f.body = f.mac)

/-- Table 10-5: the control words of a downlink have their reserved bits clear. -/
def controlsGood : List Word → Bool
  | c :: _ :: rest => decide (c &&& 0x7FC0 = 0) && controlsGood rest
  | _ => true

/-- Table 10-2: CAP has its reserved bits clear. -/
def capGood (w : Word) : Bool := decide (fieldOf w 3 13 = 0)

/-- R291, Tables 10-2 to 10-5: TYPE is not reserved, no reserved bit or word is set, and LEN fits the TYPE and the body. -/
def frameFits (f : Frame) : Bool :=
  let n := fieldOf f.header 4 5
  decide (fieldOf f.header 0 4 = 0) && decide (n = f.body.length) &&
  (match frameType f with
   | 1 => decide (n = 11) && capGood (bodyWord f 1) && !bitOf (bodyWord f 10) 0
   | 2 => decide (n = 15) && !bitOf (bodyWord f 1) 14
   | 3 => decide (n = 15) && capGood (bodyWord f 3) && (f.body.drop 4).all fun w => decide (w = 0)
   | 4 | 5 => decide (n % 2 = 0 ∧ 2 ≤ n ∧ n ≤ 16) && controlsGood f.body
   | _ => false)

/-- Table 10-2: VER of step C. -/
def ownVer : Word := 0x0100

/-- Major and minor version of a VER word. -/
def majorOf (v : Word) : Nat := fieldOf v 8 8
def minorOf (v : Word) : Byte := v.setWidth 8

/-! ## FIFOs of the link (Table 01-4) -/

/-- Header, body, MAC and CRC of a frame, in words. -/
def frameWords (f : Frame) : Nat := f.body.length + 4

/-- Table 01-4: the link RX FIFO holds the frame. -/
def fifoHolds (f : Frame) : Bool := decide (frameWords f ≤ 64)

/-- The frame overflows the link RX FIFO, or an injection shows it so (R149). -/
def overflows (f : Frame) (s : State) : Bool := shows 0x2A5 (!fifoHolds f) s

/-- R139: a frame passes the link RX FIFO; one that is longer overflows it, with event 2A5h, and is lost. -/
def takeFrame (f : Frame) (s : State) : State :=
  if overflows f s then edge 0x2A5 true { s with gl := { s.gl with rx := none } }
  else parityRead 13 (edge 0x2A5 false { s with gl := { s.gl with rx := some f } })

/-- R139, R428: a frame passes the link TX FIFO to GLTX; without VDDIO nothing leaves the pin. -/
def transmit (f : Frame) (s : State) : State :=
  parityRead 13 { s with gl := { s.gl with tx := if linkPins s then some f else none } }

/-- One check of a frame that arrives, which an injection may force to fail (R149): its event, then what a failure does, or the
checks that follow. -/
def checked (id : Nat) (fails : Bool) (no yes : State → State) (s : State) : State :=
  if shows id fails s then no (edge id true s) else yes (edge id false s)

/-- Table 13-4: the MAC passes; until the origin after a zeroize none does. -/
def macPasses (nn : Option W32) (sn sfn : W32) (f : Frame) (s : State) : Bool :=
  !s.gl.keyCut && macGood s.gl.key sn sfn nn f

/-! ## The link key (R286, R315) -/

/-- R286: the key slot is latched at an origin. On a running link a first zero key raises event 2A3h, a change event 2A4h. -/
def latchKey (s : State) : State :=
  let key := s.key.link
  let zero := !bitOf s.key.pres 1
  let live := decide (s.gl.state ≠ .off)
  let changed := decide (key ≠ s.gl.key) || (zero != s.gl.zkey)
  let s1 := { s with gl := { s.gl with key := key, zkey := zero, keyed := live, keyCut := false } }
  let s2 := when (live && s.gl.keyed && changed) (raise 0x2A4) s1
  when (live && zero && !(s.gl.keyed && s.gl.zkey)) (raise 0x2A3) s2

/-! ## The HUB at an origin (R289, R302) -/

/-- R307, R314: the pending access ends with RES; an unconfirmed unicast raises its event. -/
def endAccess (res : BitVec 2) (s : State) : State :=
  match s.gl.job with
  | none => s
  | some j =>
    let s1 := { s with gl := { s.gl with job := none, goBit := false, res := res } }
    when (decide (res = 2) && !j.bcast) (raise (glE j.tgt 13)) s1

/-- R302, R314: the link stops at an origin: event 2A1h. -/
def stopLink (s : State) : State :=
  endAccess 2 (raise 0x2A1 { s with gl := { s.gl with state := .off, slot := none } })

/-- R302, R293: the link starts at an origin with a new SN and SFN = 0: event 2A0h. -/
def startHub (s : State) : State :=
  let d := nextDraw s
  raise 0x2A0 { d.2 with gl := { d.2.gl with state := .run, sn := Config.noise d.1, sfn := 0, keyed := false } }

/-- R293: the next superframe; after SFN FFFF_FFFFh a new SN and SFN 0. -/
def nextSuperframe (s : State) : State :=
  if s.gl.sfn = 0xFFFFFFFF then
    let d := nextDraw s
    { d.2 with gl := { d.2.gl with sn := Config.noise d.1, sfn := 0 } }
  else { s with gl := { s.gl with sfn := s.gl.sfn + 1 } }

/-- The station whose DLY a superframe carries; none for SFN mod 16 = 0 (Table 10-2). -/
def dlyStation (sfn : W32) : Station := ⟨fieldOf sfn 0 4, Nat.mod_lt _ (by decide)⟩

/-- Table 10-2: the beacon; it carries the DLY of one station (R295), 0 with RNG = 0 (R296). -/
def sendBeacon (s : State) : State :=
  let a := dlyStation s.gl.sfn
  let dly := if a = 0 ∨ s.gl.rngNow = false then 0 else (s.gl.node.get a).dly
  let body : List Word :=
    [ownVer, ownCap] ++ wordsOfBytes (leBytes 6 s.gl.ht.toNat) ++ [lowWord s.gl.sfn, highWord s.gl.sfn] ++
    [lowWord s.gl.sn, highWord s.gl.sn, BitVec.ofNat 16 dly, BitVec.ofNat 16 (memberMask s)]
  let s1 := modNode a (fun n => { n with sentDly := dly }) s
  transmit (makeFrame s.gl.key s.gl.sn s.gl.sfn none (headerWord 1 0 11) body)
    { s1 with gl := { s1.gl with slot := some 0 } }

/-- R302, R308, Table 10-10: a waiting restart is taken at an origin. -/
def takeRestart (s : State) : State :=
  { s with gl := { s.gl with restart := false, restartBit := s.gl.restartBit && !s.gl.restart } }

/-- An origin at a HUB: EN and RESTART act, the key is latched, a running link sends its beacon. -/
def hubOrigin (s0 : State) : State :=
  let s := { s0 with gl := { s0.gl with ht := s0.gl.ht + 12288 } }
  let goes := decide (s.gl.state = .run) && s.gl.en && !s.gl.restart
  let s1 := when (decide (s.gl.state = .run) && !goes) stopLink s
  let s2 := takeRestart s1
  let s3 := if goes then nextSuperframe s2 else when s2.gl.en startHub s2
  let s4 := latchKey s3
  when (decide (s4.gl.state = .run)) sendBeacon s4

/-- R296: RNG and TRIM are taken into use. With RNG = 0 a NODE uses A = 0; with TRIM = 0 ALGN clears, and the next turn takes
MODTRIM to 0 (R35). -/
def takeModes (s : State) : State :=
  let s1 := { s with gl := { s.gl with rngNow := s.gl.rng, trimNow := s.gl.trim } }
  let s2 := if isNode s1 ∧ s1.gl.rngNow = false then { s1 with gl := { s1.gl with adv := 0 } } else s1
  if isNode s2 ∧ s2.gl.trimNow = false then
    when s2.gl.algn (raise 0x1AF) { s2 with gl := { s2.gl with algn := false, aligned := 0 } }
  else s2

/-- An origin at a NODE: with EN = 0 it goes to OFF, a restart leads through OFF to SEARCH (Table 10-7, R308). -/
def nodeOrigin (s : State) : State :=
  let s1 := takeRestart s
  let s2 :=
    if s.gl.state = .off then s1
    else if !s.gl.en then linkOff s1
    else if s.gl.restart then enterSearch s1
    else if s.gl.state = .search then s1
    else { s1 with gl := { s1.gl with slot := some 0 } }
  latchKey s2

/-- R286, R289, R296: a superframe origin. -/
def superframeOrigin (s : State) : State :=
  let s1 := takeModes s
  if isNode s1 then nodeOrigin s1 else hubOrigin s1

def execSuperframeOrigin (s : State) : Host.Outcome State Fault Refusal := complete (when (sysLive s) superframeOrigin s)

/-! ## A NODE takes beacons (R293, R295, R296, R298) -/

/-- A phase error in units of 1/64 LNK tick, against a limit in ns: |e| ≤ limit. -/
def errorWithin (e : Int) (ns : Nat) : Bool := decide (e.natAbs * 1000000000 ≤ ns * 786432000)

/-- R296: consecutive beacons with |e| ≤ 20 ns, with this one. -/
def alignCount (e : Int) (s : State) : Nat := if errorWithin e 20 then s.gl.aligned + 1 else 0

/-- R296: ALGN sets after 16 consecutive beacons with |e| ≤ 20 ns (`n` so far), and clears beyond 25 ns, or as an injection
shows it (R149). -/
def setAlignment (e : Int) (n : Nat) (s : State) : State :=
  let clears := s.gl.algn && !errorWithin e 25
  let sets := !s.gl.algn && decide (16 ≤ n)
  let algn := if shows 0x1AF clears s then false else shows 0x1AE sets s || s.gl.algn
  edge 0x1AF clears (edge 0x1AE sets { s with gl := { s.gl with algn := algn } })

/-- R296: the alignment after a beacon. -/
def alignment (e : Int) (s : State) : State :=
  setAlignment e (alignCount e s) { s with gl := { s.gl with aligned := min (alignCount e s) 16 } }

/-- R295, R296: what every valid beacon gives: L, A where it carries this NODE's DLY, e, the alignment. -/
def takeTiming (f : Frame) (e : Int) (s : State) : State :=
  let sfn := bodyPair f 5
  let ht : BitVec 48 := bodyWord f 4 ++ (bodyWord f 3 ++ bodyWord f 2)
  let adv :=
    if !s.gl.rngNow then 0
    else if dlyStation sfn = ⟨s.gl.useAddr.toNat, s.gl.useAddr.isLt⟩ then (bodyWord f 9).toNat
    else s.gl.adv
  let s1 := { s with gl := { s.gl with
    bSfn := sfn, bHt := ht, sfn := sfn, sn := bodyPair f 7, hubVer := bodyWord f 0, hubCap := bodyWord f 1
    minor := decide (minorOf (bodyWord f 0) ≠ minorOf ownVer), missed := 0, slot := some 0
    adv := adv, l := 64 * ((ht.toNat : Int) + 80) + adv, e := e } }
  when s1.gl.trimNow (alignment e) s1

/-- R293: entry to JOIN with a new NN. -/
def enterJoin (s : State) : State :=
  let d := nextDraw s
  { d.2 with gl := { d.2.gl with state := .join, nn := Config.noise d.1, good := 0 } }

/-- Table 10-7: what a valid beacon does in each state. -/
def beaconState (f : Frame) (e : Int) (s : State) : State :=
  let mine := bitOf (bodyWord f 10) s.gl.useAddr.toNat
  match s.gl.state with
  | .search =>
    let minor := shows 0x1A8 s.gl.minor s
    edge 0x1A8 s.gl.minor { s with gl := { s.gl with state := .lock, good := 0, minor := minor } }
  | .lock =>
    let n := if errorWithin e 1000 ∧ e.natAbs * 1000000000 ≠ 1000 * 786432000 then s.gl.good + 1 else 0
    if 8 ≤ n then enterJoin s else { s with gl := { s.gl with good := n } }
  | .join =>
    if mine then raise 0x1A6 { s with gl := { s.gl with state := .member, orph := false, firstUp := true } } else s
  | .member => if mine then s else enterJoin s
  | _ => s

/-- R426: hub loss on a NODE without local access: token, KEYST, NVCTL and TONECTL phases, window staging, injection. -/
def hubLossCleanup (s : State) : State :=
  discardStage { s with
    sl := { s.sl with token := [] }
    key := { s.key with stage := [], dph := false, rph := false, readPos := 0 }
    nv := { s.nv with dph := false, slugWords := [], readWords := none, cnt := 0 }
    tone := { s.tone with dph := false }
    ev := { s.ev with armed := false } }

/-- Table 10-10: ADDR is taken at each SEARCH entry. -/
def backToSearch (s : State) : State :=
  { s with gl := { s.gl with
      state := .search, useAddr := s.gl.addr, majorSeen := false, missed := 0, good := 0, held := none, slot := none } }

/-- Table 10-7, R298: hub loss: event 1A5h, ORPH. -/
def hubLoss (s : State) : State :=
  let s1 := raise 0x1A5 (backToSearch { s with gl := { s.gl with orph := true } })
  if s1.bus.localSeen then s1 else hubLossCleanup s1

/-- R298, R299: a beacon is missed: event 1A4h; L and SFN go on; the fourth in a row leads to SEARCH. -/
def beaconMissed (s : State) : State :=
  let s1 := edge 0x1A4 true { s with gl := { s.gl with
    missed := s.gl.missed + 1, sfn := s.gl.sfn + 1, l := s.gl.l + 64 * 12288, aligned := 0, good := 0, slot := some 1 } }
  if s1.gl.missed < 4 then s1
  else if s1.gl.state = .member then hubLoss s1
  else backToSearch s1

/-- R293: SN and SFN are acceptable in LOCK, JOIN and MEMBER. A member takes the new session, with another SN, that follows SFN
FFFF_FFFFh. -/
def sessionGood (f : Frame) (s : State) : Bool :=
  let same := decide (bodyPair f 7 = s.gl.sn)
  match s.gl.state with
  | .search => true
  | .member => if same then decide (s.gl.bSfn.toNat < (bodyPair f 5).toNat) else decide (s.gl.bSfn = 0xFFFFFFFF)
  | _ => same && decide (s.gl.bSfn.toNat < (bodyPair f 5).toNat)

/-- R301: a beacon of another major version: event 1A7h once for each SEARCH entry. -/
def majorRefused (s : State) : State :=
  edge 0x1A7 (decide (s.gl.state = .search) && !s.gl.majorSeen)
    { s with gl := { s.gl with majorSeen := s.gl.majorSeen || decide (s.gl.state = .search) } }

/-- Table 10-14: a frame with a correct CRC arrives in a slot of a NODE to which its TYPE does not belong. A NODE in SEARCH
expects none yet. -/
def strayFrame (s : State) : State := when (decide (s.gl.state ≠ .search)) (raise 0x2A2) s

/-- A NODE that reads a beacon has its LNK clock (log entry 27); in SEARCH it latches the key (R286). -/
def listens (s : State) : State :=
  let s1 := { s with sys := { s.sys with lnklk := true } }
  if s1.gl.state = .search then latchKey s1 else s1

/-- R291, R298: a beacon arrives at a NODE. An injection shows it with a wrong CRC or MAC, as one that R293 refuses, of another
major version, or as missed (R149). -/
def beaconReceived (f : Frame) (e : Int) (t : State) : State :=
  let s0 := takeFrame f t
  if overflows f t then s0
  else
    checked 0x1A1 (!crcGood f) id (fun s1 =>
      if !frameFits f then s1
      else if frameType f ≠ 1 then strayFrame s1
      else
        checked 0x1A2 (!macPasses none (bodyPair f 7) (bodyPair f 5) f (listens s1)) id (fun s2 =>
          checked 0x1A3 (!sessionGood f s2) id (fun s3 =>
            if shows 0x1A7 (decide (majorOf (bodyWord f 0) ≠ majorOf ownVer)) s3 then majorRefused s3
            else if injected 0x1A4 s3 then beaconMissed s3
            else beaconState f e (takeTiming f e (raise 0x1A0 (edge 0x1A4 false (edge 0x1A7 false s3))))) s2) (listens s1)) s0

/-- A NODE whose link is on. -/
def nodeOn (s : State) : Bool := linkPins s && isNode s && decide (s.gl.state ≠ .off)

def execBeaconReceived (f : Frame) (e : Int) (s : State) : Host.Outcome State Fault Refusal :=
  complete (when (nodeOn s) (beaconReceived f e) s)

/-- A NODE that keeps L: LOCK, JOIN, MEMBER. -/
def nodeTimed (s : State) : Bool :=
  sysLive s && isNode s &&
  (match s.gl.state with
   | .lock | .join | .member => true
   | _ => false)

def execBeaconMissed (s : State) : Host.Outcome State Fault Refusal := complete (when (nodeTimed s) beaconMissed s)

/-- R311: a NODE loses LNK lock: event 2A6h. -/
def execLnkLockLoss (s : State) : Host.Outcome State Fault Refusal :=
  complete (when (sysLive s && isNode s && s.sys.lnklk)
    (fun t => raise 0x2A6 { t with sys := { t.sys with lnklk := false } }) s)

/-! ## Uplinks (R303, R304) -/

/-- R303, R301: up to four records leave the FIFO, their parity checked (R139); tap records stay out of the frame where their
capability is missing. -/
def takeRecords (s : State) : List Record × State :=
  if s.fm.sink then
    let rs := s.fm.fifo.take 4
    let taps := bitOf (s.gl.hubCap &&& ownCap) 2
    let s1 := forAll rs (fun _ => parityRead 12) s
    (rs.filter fun r => taps || !bitOf r.tag 8, { s1 with fm := { s1.fm with fifo := s1.fm.fifo.drop 4 } })
  else ([], s)

/-- R207: a record as three words, 0, 1, 2. -/
def recordWords (r : Record) : List Word := [highWord r.value, lowWord r.value, r.tag]

/-- Table 10-3: STAT. -/
def statWord (nrec : Nat) (s : State) : Word :=
  packWord
    [(flag s.gl.algn, 15), (flag s.gl.firstUp, 14), (flag s.fm.ovf, 13), (flag (liveAll s), 12), (modeState s, 10),
     (nrec, 7), (flag ((List.range 64).any fun g => groupPending s.ev g), 6), (min 63 (s.fm.fifo.length / 8), 0)]

/-- Table 10-3: a DATA uplink; RASTAT and RADATA are reported once. -/
def sendData (s : State) : State :=
  let r := takeRecords s
  let recs := (r.1.map recordWords).flatten
  let body := [statWord r.1.length r.2, s.gl.rastat, s.gl.radata] ++ (recs ++ List.replicate 12 0).take 12
  transmit (makeFrame s.gl.key s.gl.sn s.gl.sfn (some s.gl.nn) (headerWord 2 s.gl.useAddr.toNat 15) body)
    { r.2 with gl := { r.2.gl with
      rastat := 0, radata := 0, firstUp := false, slot := some ⟨s.gl.useAddr.toNat, by omega⟩ } }

/-- Table 10-4: a JOIN uplink. -/
def sendJoin (s : State) : State :=
  let body := [lowWord s.gl.nn, highWord s.gl.nn, ownVer, ownCap] ++ List.replicate 11 0
  transmit (makeFrame s.gl.key s.gl.sn s.gl.sfn none (headerWord 3 s.gl.useAddr.toNat 15) body)
    { s with gl := { s.gl with slot := some ⟨s.gl.useAddr.toNat, by omega⟩ } }

/-- R303, Table 10-7: the uplink of a NODE: DATA as a member, JOIN in JOIN, none elsewhere. Until the origin after a zeroize no
frame is sent (Table 13-4). -/
def uplinkSend (s : State) : State :=
  if s.gl.keyCut then s
  else
    match s.gl.state with
    | .member => sendData s
    | .join => sendJoin s
    | _ => s

def execUplinkSend (s : State) : Host.Outcome State Fault Refusal :=
  complete (when (sysLive s && isNode s) uplinkSend s)

/-! ## The HUB takes uplinks (R295, R300, R304, R307) -/

/-- R295: the round-trip estimate and DLY of a station after a measurement with error Δ, and whether it jumps and is clamped;
`jumps` and `clamps` force them. -/
def ranged (delta : Int) (jumps clamps : Bool) (n : NodeRec) : NodeRec × Bool × Bool :=
  let m := 2 * (n.sentDly : Int) + delta
  let jump := match n.rtt with
    | none => false
    | some r => decide (512 < (m - r).natAbs)
  let rtt := match n.rtt with
    | none => m
    | some r => if jump || jumps then m else r + roundAway (m - r) 16
  let dly := (roundAway rtt 2).toNat
  ({ n with rtt := some rtt, dly := if clamps then 2048 else min dly 2048 }, jump, decide (2048 < dly))

/-- R295: an uplink of a station is ranged; an injection shows a jump, or DLY at its clamp (R149). -/
def rangeStation (a : Station) (delta : Int) (s : State) : State :=
  let r := ranged delta (injected (glE a 10) s) (injected (glE a 11) s) (s.gl.node.get a)
  edge (glE a 11) r.2.2 (edge (glE a 10) r.2.1 (modNode a (fun _ => r.1) s))

/-- The pair of a queue that reads, if any. -/
def readPair (queue : Vector Word 16) (nacc : Nat) : Option Nat :=
  (List.range nacc).find? fun i => bitOf ((queue[2 * i]?).getD 0) 15

/-- R307: a uplink confirms the unicast of the superframe before. -/
def confirms (a : Station) (f : Frame) (s : State) : Bool :=
  match s.gl.job with
  | some j =>
    !j.bcast && decide (j.tgt = a) && bitOf (bodyWord f 1) 15 &&
    (match j.sent with
     | some n => decide (s.gl.sfn = n + 1) && decide (fieldOf (bodyWord f 1) 0 8 = fieldOf n 0 8)
     | none => false)
  | none => false

/-- R307: RADATA goes to the data word of the read pair; RES = 01b, event 1ACh + 10h × a. -/
def confirmAccess (a : Station) (f : Frame) (s : State) : State :=
  let n := (s.gl.job.map (·.nacc)).getD 0
  let s1 := match readPair s.gl.queue n with
    | some i => { s with gl := { s.gl with queue := s.gl.queue.setIfInBounds (2 * i + 1) (bodyWord f 2) } }
    | none => s
  raise (glE a 12) (endAccess 1 s1)

/-- R304: a DATA uplink of station `a` that passed its CRC. -/
def dataUplink (a : Station) (f : Frame) (delta : Int) (s : State) : State :=
  checked (glE a 2) (!macPasses (some (s.gl.node.get a).nn) s.gl.sn s.gl.sfn f s) id (fun t =>
    let words : List Word := [lowWord t.gl.sfn, bodyWord f 0] ++ f.body.drop 3
    let s1 := rangeStation a delta t
    let s2 := raise (glE a 0) (modNode a (fun m => { m with heard := true, words := vecOf 14 0 words }) s1)
    if confirms a f s2 then confirmAccess a f s2 else s2) s

/-- GLST.MINOR of a HUB: some member has another minor version. -/
def hubMinor (s : State) : State :=
  let any := (List.finRange 16).any fun a => (s.gl.node.get a).member && decide ((s.gl.node.get a).minor ≠ minorOf ownVer)
  { s with gl := { s.gl with minor := any } }

/-- R300, R301: a JOIN of station `a` that passed its CRC. -/
def joinUplink (a : Station) (f : Frame) (delta : Int) (s : State) : State :=
  checked (glE a 2) (!macPasses none s.gl.sn s.gl.sfn f s) id
    (checked (glE a 7) (decide (majorOf (bodyWord f 2) ≠ majorOf ownVer)) (rangeStation a delta) fun t =>
      let was := (t.gl.node.get a).member
      let s1 := modNode a (fun n => { n with
        member := true, nn := bodyPair f 0, rtt := none, missed := 0, heard := true, minor := minorOf (bodyWord f 2)
        caps := (bodyWord f 3 &&& ownCap).setWidth 8 }) t
      edge (glE a 8) (decide (minorOf (bodyWord f 2) ≠ minorOf ownVer))
        (raise (glE a (if was then 9 else 6)) (hubMinor (rangeStation a delta s1)))) s

/-- R291: a frame arrives in slot `a` of a HUB. A frame with a correct CRC that does not belong there raises event 2A2h. -/
def uplinkArrived (a : Station) (f : Frame) (delta : Int) (s0 : State) : State :=
  let s1 := modNode a (fun n => { n with seen := true })
    { s0 with gl := { s0.gl with slot := some (a.castLE (by decide)) } }
  let s := takeFrame f s1
  if overflows f s1 then s
  else
    checked (glE a 1) (!crcGood f) id (fun t =>
      if !frameFits f then t
      else if frameAddr f ≠ a.val then raise 0x2A2 t
      else if frameType f = 2 then dataUplink a f delta t
      else if frameType f = 3 then joinUplink a f delta t
      else raise 0x2A2 t) s

/-- A running HUB, for the slot of a NODE. -/
def hubSlot (a : Station) (s : State) : Bool :=
  linkPins s && !isNode s && decide (s.gl.state = .run) && decide (a ≠ 0)

def execUplinkReceived (a : Station) (f : Frame) (delta : Int) (s : State) : Host.Outcome State Fault Refusal :=
  complete (when (hubSlot a s) (uplinkArrived a f delta) s)

def execJoinReceived (a : Station) (f : Frame) (delta : Int) (s : State) : Host.Outcome State Fault Refusal :=
  complete (when (hubSlot a s) (uplinkArrived a f delta) s)

/-- The pending access is a unicast to station `a`. -/
def accessTo (a : Station) (s : State) : Bool :=
  match s.gl.job with
  | some j => !j.bcast && decide (j.tgt = a)
  | none => false

/-- R307: the slot in which the access had to be confirmed. -/
def confirmationDue (a : Station) (s : State) : Bool :=
  accessTo a s &&
  (match s.gl.job with
   | some j => match j.sent with
     | some n => decide (s.gl.sfn = n + 1)
     | none => false
   | none => false)

/-- R300, R314: node loss. -/
def nodeLost (a : Station) (s : State) : State :=
  let s1 := raise (glE a 5) (hubMinor (modNode a (fun n => { n with member := false, missed := 0 }) s))
  when (accessTo a s1) (endAccess 2) s1

/-- Table 10-11: the slot that follows slot `a` of a NODE. -/
def slotAfter (a : Station) : Fin 17 := ⟨a.val + 1, by omega⟩

/-- R300, R307: slot `a` ends: an empty slot, the third one in a row without a valid uplink, a confirmation that did not
come. An injection shows the slot empty (R149). -/
def nodeSlotEnd (a : Station) (s : State) : State :=
  let n := s.gl.node.get a
  let heard := n.heard && !injected (glE a 4) s
  let s1 := edge (glE a 4) (!n.seen)
    (modNode a (fun m => { m with
      heard := false, seen := false, missed := if m.member && !heard then m.missed + 1 else 0 }) s)
  let s2 := when (confirmationDue a s1) (endAccess 2) { s1 with gl := { s1.gl with slot := some (slotAfter a) } }
  when (decide (3 ≤ (s2.gl.node.get a).missed)) (nodeLost a) s2

def execNodeSlotEnd (a : Station) (s : State) : Host.Outcome State Fault Refusal :=
  complete (when (sysLive s && !isNode s && decide (s.gl.state = .run) && decide (a ≠ 0)) (nodeSlotEnd a) s)

/-! ## Remote access (R305 to R307) -/

/-- The first `n` access pairs of words. -/
def accessPairs : Nat → List Word → List (Word × Word)
  | 0, _ => []
  | n + 1, c :: v :: rest => (c, v) :: accessPairs n rest
  | _, _ => []

/-- How many accesses of a list read. -/
def readCount (ps : List (Word × Word)) : Nat := (ps.filter fun p => bitOf p.1 15).length

/-- R301, R306: some member NODE lacks the broadcast capability. -/
def broadcastLacks (s : State) : Bool :=
  (List.finRange 16).any fun a => (s.gl.node.get a).member && !bitOf (s.gl.node.get a).caps 1

/-- R306: a GLRA write with GO = 1 is refused. A broadcast has every member NODE as its target (log entry 27). -/
def goRefused (s : State) : Bool :=
  let n := s.gl.nacc.toNat
  let reads := readCount (accessPairs n s.gl.queue.toList)
  let t := s.gl.node.get ⟨s.gl.tgt.toNat, s.gl.tgt.isLt⟩
  decide (s.gl.state ≠ .run) || s.gl.job.isSome || decide (n = 0 ∨ 8 < n) ||
  (if s.gl.bcast then decide (0 < reads) || broadcastLacks s
   else decide (1 < reads) || !t.member || (decide (0 < reads) && !bitOf t.caps 0))

/-- R305, R306: GO. -/
def remoteGo (s : State) : State :=
  if goRefused s then raise 0x2AA { s with gl := { s.gl with res := 3 } }
  else
    let j : RemoteJob :=
      { bcast := s.gl.bcast, localX := s.gl.bcast && s.gl.localX, tgt := ⟨s.gl.tgt.toNat, s.gl.tgt.isLt⟩
        nacc := s.gl.nacc.toNat, sent := none }
    { s with gl := { s.gl with job := some j, res := 0, goBit := true } }

/-- Table 10-13: a write of GLRA; ignored on a NODE. -/
def writeGlra (v : Word) (s : State) : State :=
  if isNode s then s
  else
    let s1 := { s with gl := { s.gl with
      bcast := bitOf v 14, localX := bitOf v 13, tgt := BitVec.ofNat 4 (fieldOf v 8 4)
      nacc := BitVec.ofNat 4 (fieldOf v 0 4) } }
    when (bitOf v 15) remoteGo s1

def execRemoteAccessGo (w : Word) (s : State) : Host.Outcome State Fault Refusal :=
  complete (onBus (writeGlra (w ||| 0x8000)) s)

/-- Table 10-5: the data word of a read is sent as 0. -/
def sentPairs (ps : List (Word × Word)) : List Word :=
  (ps.map fun p => [p.1 &&& 0x803F, if bitOf p.1 15 then 0 else p.2]).flatten

/-- R305: the queue is sent in slot 16; with LOCAL the HUB holds it for itself. After a zeroize it waits for a slot behind the
next origin (Table 13-4). -/
def downlinkSend (s : State) : State :=
  match s.gl.job with
  | none => s
  | some j =>
    if j.sent.isSome || s.gl.keyCut then s
    else
      let ps := accessPairs j.nacc s.gl.queue.toList
      let body := sentPairs ps
      let header := if j.bcast then headerWord 5 0 body.length else headerWord 4 j.tgt.val body.length
      let nn := if j.bcast then none else some (s.gl.node.get j.tgt).nn
      let held : Option Held :=
        if j.localX then some { pairs := ps, sfn := s.gl.sfn, unicast := false, refused := false } else s.gl.held
      transmit (makeFrame s.gl.key s.gl.sn s.gl.sfn nn header body)
        { s with gl := { s.gl with job := some { j with sent := some s.gl.sfn }, held := held, slot := some 16 } }

def execDownlinkSend (s : State) : Host.Outcome State Fault Refusal :=
  complete (when (sysLive s && !isNode s && decide (s.gl.state = .run)) downlinkSend s)

/-- R307: the downlink slot ends: a broadcast that was sent is done: RES = 01b, event 2ABh. -/
def downlinkSlotEnd (s : State) : State :=
  match s.gl.job with
  | some j => if j.bcast && j.sent.isSome then raise 0x2AB (endAccess 1 s) else s
  | none => s

def execDownlinkSlotEnd (s : State) : Host.Outcome State Fault Refusal :=
  complete (when (sysLive s && !isNode s) downlinkSlotEnd s)

/-- R306: what a NODE executes nothing of: more than one read, a read in a broadcast, or a missing capability. -/
def downlinkRefused (unicast : Bool) (reads : Nat) (s : State) : Bool :=
  let caps := s.gl.hubCap &&& ownCap
  if unicast then decide (1 < reads) || (decide (0 < reads) && !bitOf caps 0)
  else decide (0 < reads) || !bitOf caps 1

/-- R305, R291: a downlink arrives at a NODE; one that passes CRC and CMAC is held for the next origin. -/
def downlinkArrived (f : Frame) (t : State) : State :=
  let unicast := decide (frameType f = 4)
  if overflows f t then takeFrame f t
  else
    checked 0x1A1 (!crcGood f) id (fun s =>
      if !frameFits f then s
      else if frameType f < 4 then strayFrame s
      else if unicast && decide (frameAddr f ≠ s.gl.useAddr.toNat) then s
      else
        checked 0x1A2 (!macPasses (if unicast then some s.gl.nn else none) s.gl.sn s.gl.sfn f s) id (fun s =>
          let ps := accessPairs 8 f.body
          let h : Held :=
            { pairs := ps, sfn := s.gl.sfn, unicast := unicast, refused := downlinkRefused unicast (readCount ps) s }
          { s with gl := { s.gl with held := some h, slot := some 16 } }) s) (takeFrame f t)

def execDownlinkReceived (f : Frame) (s : State) : Host.Outcome State Fault Refusal :=
  complete (when (linkPins s && nodeTimed s) (downlinkArrived f) s)

def execBroadcastReceived (f : Frame) (s : State) : Host.Outcome State Fault Refusal :=
  complete (when (linkPins s && nodeTimed s) (downlinkArrived f) s)

/-! ## GLCTL (Table 10-10) -/

/-- The fields of GLCTL that a word would change; ADDR = 0 is no address. -/
def glctlChange (v : Word) (s : State) : Bool :=
  decide ((v ^^^ glctlWord s) &&& 0xE000 ≠ 0) ||
  (isNode s && decide (fieldOf v 0 4 ≠ 0) && decide (fieldOf v 0 4 ≠ s.gl.addr.toNat))

/-- A write of GLCTL that would change its RWM fields can be taken (R12, R46, R47). -/
def glctlTaken (v : Word) (s : State) : Bool :=
  glctlChange v s && inMakeready s && !isClosing s && legalRoom 0 s

/-- A write of GLCTL: its RWM fields, where ADDR = 0 is refused with event 2A7h; then RESTART. A restart written with a change
that waits for the increment of R44 follows that change, so that it takes the new ADDR (R308, log entry 27). -/
def writeGlctl (v : Word) (s : State) : State :=
  let noAddr := isNode s && decide (fieldOf v 0 4 = 0)
  let s1 := when (bitOf v 12) (fun t => { t with gl := { t.gl with restartBit := true } }) s
  if !inMakeready s then when (bitOf v 12) restartLink (when (glctlChange v s || noAddr) (raise 0x24) s1)
  else
    let s2 := rwmWrite (glctlChange v s) 0x2B v (applyGlctl v) (when noAddr (raise 0x2A7) s1)
    when (bitOf v 12 && !glctlTaken v s) restartLink s2

def execLinkRestart (w : Word) (s : State) : Host.Outcome State Fault Refusal :=
  complete (onBus (writeGlctl (w ||| 0x1000)) s)

end Sys2Proof.Machine
end

