-- ==== Sys2Proof/Machine/Guard.lean ====
section
/-! DEFINITION. Machine/Guard.lean: the Frisket guard: the pass and its program, the detectors and trips of the eleven
sources, their classification (R318 to R330, R346 to R352), glitches, the LFXO, the apply checks, FKCTL, FKST and FKRESP. -/

namespace Sys2Proof.Machine

/-! ## Sources (Tables 11-1, 11-13) -/

/-- Event of detector A (`isA`) or B of a source. -/
def detectorEvent (src : Nat) (isA : Bool) : Nat :=
  (if src < 4 then 0x2E0 + 0x10 * src else if src < 6 then 0x320 + 4 * (src - 4) else 0x330 + 2 * (src - 6)) +
    (if isA then 0 else 1)

/-- Event of a trip. -/
def tripEvent (src : Nat) : Nat :=
  if src < 4 then 0x2E2 + 0x10 * src else if src < 6 then 0x322 + 4 * (src - 4) else 0x340 + (src - 6)

/-- Event of a detector disagreement. -/
def disagreeEvent (src : Nat) : Nat :=
  if src < 4 then 0x2E3 + 0x10 * src else if src < 6 then 0x323 + 4 * (src - 4) else 0x345 + (src - 6)

/-- R328: code of a trip that is tamper. -/
def tamperCode (src : Nat) : Byte := if src < 4 then 0x30 else if src < 7 then 0x31 else 0x32

/-- The sources in order. -/
def sources : List (Fin 11) := [0, 1, 2, 3, 4, 5, 6, 7, 8, 9, 10]

/-- One source replaced. -/
def modSrc (i : Fin 11) (f : Source → Source) (s : State) : State :=
  { s with fk := { s.fk with src := setCh s.fk.src i f } }

/-! ## Trips (R327, R331) -/

/-- Table 11-9: the trip bit of a source, and LKTRIP for a trip in LOCKUP. -/
def tripBits (src : Nat) (inLockup : Bool) (f : Frisket) : Frisket :=
  let f1 := { f with lktrip := f.lktrip || inLockup }
  if src < 4 then { f1 with ltrip := setBit f1.ltrip src true }
  else if src < 6 then { f1 with ctrip := setBit f1.ctrip (src - 4) true }
  else if src = 6 then { f1 with caltrip := true }
  else { f1 with etrip := setBit f1.etrip (src - 7) true }

/-- R327, R331, R350: a detector of a source enters its condition: an armed source trips, with the response that FKRESP
gives it at that moment. `injected`: only a LIVETEST injection shows the condition (R346). -/
def decideTrip (i : Fin 11) (injected : Bool) (s : State) : State :=
  if !(s.fk.src.get i).armed then s
  else
    let inLockup := decide (s.pwr.phase = .lockup)
    let resp := responseOf s.fk i.val
    let t : Trip :=
      { evals := 0, both := false, onlyA := true, onlyB := true, firstA := false, firstB := false, inLockup := inLockup
        resp := BitVec.ofNat 2 resp, code := 0, time := s.bkp.sec, frac := s.bkp.frac, injected := injected
        erased := if injected && decide (resp = 2) && !s.key.clear then some (zeroizeData i.val s) else none }
    let s1 := modSrc i (fun _ => { armed := false, quiet := 0, trip := some t }) s
    let s2 := post (tripEvent i.val) { s1 with fk := tripBits i.val inLockup s1.fk }
    when (decide (resp = 2)) (zeroizeLogged (!injected) i.val) s2

/-- R352: a real condition joins the evaluation in which a LIVETEST injection made the source trip: the trip is real, and its
code 33h is queued. -/
def realTrip (i : Fin 11) (s : State) : State :=
  match (s.fk.src.get i).trip with
  | some t =>
    if t.injected && decide (t.evals = 0) then
      let s1 := modSrc i (fun x => { x with trip := some { t with injected := false, erased := none } }) s
      match t.erased with
      | some d => logNow 0x33 d s1
      | none => s1
    else s
  | none => s

/-! ## One pass -/

/-- What a pass has found of one source. -/
structure SrcEval where
  seen : Bool
  a : Bool
  b : Bool
  /-- a real input showed the condition -/
  real : Bool
  /-- an injection with LIVETEST = 0 forced the condition -/
  inj : Bool
  code : Byte
deriving DecidableEq, Repr

/-- A pass in progress: the state, what it has found, the level driven on each loop in this pass, FCK ticks taken, whether
it was cut, whether any source was in condition. -/
structure Pass where
  st : State
  ev : Vector SrcEval 11
  driven : Vector (Option Bool) 4
  ticks : Nat
  cut : Bool
  any : Bool
deriving DecidableEq, Repr

/-- R318, R327, R346: one detector's evaluation. An injection forces it into its condition: with LIVETEST as a real one
would be, else with the detector's event and, at the end of the pass, the trip's event alone. -/
def observe (i : Fin 11) (isA cond : Bool) (code : Byte) (p : Pass) : Pass :=
  let s := p.st
  let id := detectorEvent i.val isA
  let f := injected id s
  let live := f && s.fk.livetest
  let s1 := detectBkp id cond s
  let s3 := when cond (realTrip i) (when (cond || live) (decideTrip i (!cond)) s1)
  let e := p.ev.get i
  let e1 : SrcEval :=
    { seen := true, a := e.a || (isA && (cond || live)), b := e.b || (!isA && (cond || live)), real := e.real || cond
      inj := e.inj || (f && !live)
      code := if isA then e.code else code }
  { p with st := s3, ev := setCh p.ev i (fun _ => e1), any := p.any || cond || f }

/-- R323, R326: `n` more FCK ticks, unless the window of 262 ticks ends before them. -/
def spend (n : Nat) (act : Pass → Pass) (p : Pass) : Pass :=
  if p.cut then p
  else if 262 < p.ticks + n then { p with cut := true }
  else act { p with ticks := p.ticks + n }

/-- R321: mode of a loop in this pass: 0 OFF, 1 STATIC_HIGH, 2 STATIC_LOW, 3 PRBS. -/
def loopMode (lmode : BitVec 8) (k : Nat) : Nat := fieldOf lmode (2 * k) 2

/-- The loops that a step selects and whose mode is not OFF. -/
def selectedLoops (w : W32) (lmode : BitVec 8) : List (Fin 4) :=
  channels.filter fun k => bitOf w (24 + k.val) && decide (loopMode lmode k.val ≠ 0)

/-- R322: the next bit of an LFSR and its next state. -/
def lfsrNext (v : BitVec 15) : Bool × BitVec 15 :=
  let b := bitOf v 14 != bitOf v 13
  (b, (v <<< 1) ||| (if b then 1 else 0))

/-- R321, R322: DRIVE of one loop, or its release. -/
def driveLoop (release : Bool) (k : Fin 4) (p : Pass) : Pass :=
  let m := loopMode p.st.fk.lmodeNow k.val
  let n := lfsrNext (p.st.fk.lfsr.get k)
  let level : Option Bool := if release then none else some (if m = 1 then true else if m = 2 then false else n.1)
  let lfsr := if !release && decide (m = 3) then setCh p.st.fk.lfsr k (fun _ => n.2) else p.st.fk.lfsr
  { p with
    driven := setCh p.driven k (fun _ => level)
    st := { p.st with fk := { p.st.fk with lfsr := lfsr, loopo := setCh p.st.fk.loopo k (fun _ => level) } } }

/-- The code lies outside the window of a step. -/
def outsideWindow (w : W32) (code : Byte) : Bool :=
  decide (code.toNat < fieldOf w 0 8 ∨ fieldOf w 8 8 < code.toNat)

/-- R318, R329: CASE of one switch input: CASE[0], CASE[1], CALSW. A case input that is not in use is not evaluated (R475). -/
def caseStep (r : PassReading) (w : W32) (j : Fin 3) (p : Pass) : Pass :=
  let x := r.switch.get j
  let code := switchCode x
  let out := outsideWindow w code
  if j.val = 2 then
    let p1 := { p with st := { p.st with fk := { p.st.fk with calBoth := !x.above && !out, calAge := 0 } } }
    observe 6 false (!out) code (observe 6 true (!x.above) code p1)
  else if bitOf p.st.fk.caseen j.val then
    let i : Fin 11 := if j.val = 0 then 4 else 5
    observe i false out code (observe i true x.above code p)
  else p

/-- R318: ENV of one source: VBAT, temperature, LFXO. VBAT is evaluated only while the BKP domain runs from it. -/
def envStep (r : PassReading) (j : Fin 3) (p : Pass) : Pass :=
  let i : Fin 11 := if j.val = 0 then 7 else if j.val = 1 then 8 else 9
  if j.val = 0 ∧ p.st.pwr.bkpOnVdd then p
  else observe i false (r.envB.get j) 0 (observe i true (r.envA.get j) 0 p)

/-- The items of a list of actions in turn. -/
def inTurn {α : Type} (xs : List α) (f : α → Pass → Pass) (p : Pass) : Pass := xs.foldl (fun q x => f x q) p

/-- Table 11-2: whether a JUMP is taken. -/
def jumpTaken (w : W32) (p : Pass) : Bool :=
  match fieldOf w 26 2 with
  | 0 => true
  | 1 => p.any
  | 2 => decide (p.st.pwr.phase = .lockup)
  | _ => !decide (p.st.pwr.phase = .lockup)

/-- Table 11-2: a step other than SLEEP and JUMP. -/
def plainStep (r : PassReading) (w : W32) (p : Pass) : Pass :=
  let loops := selectedLoops w p.st.fk.lmodeNow
  let three : List (Fin 3) := [0, 1, 2].filter fun j => bitOf w (25 + j.val)
  match fieldOf w 28 4 with
  | 1 => spend 1 (inTurn loops (driveLoop (bitOf w 23))) p
  | 2 => spend (fieldOf w 0 8 + 1) id p
  | 3 =>
    spend 1
      (inTurn loops fun k q =>
        observe (k.castLE (by decide)) true (loopDiffers (r.loop.get k) (q.driven.get k)) 0 q) p
  | 4 =>
    inTurn loops
      (fun k => spend 8 fun q =>
        observe (k.castLE (by decide)) false (outsideWindow w (loopCode (r.loop.get k))) (loopCode (r.loop.get k)) q) p
  | 5 => inTurn three (fun j => spend 8 (caseStep r w j)) p
  | _ => inTurn three (fun j => spend 4 (envStep r j)) p

/-- R323: the steps from step `i` on. A JUMP goes forward only (Table 11-3); SLEEP, a reserved step, the end of the window
and step 31 end the pass. -/
def runSteps (r : PassReading) (prog : Vector W32 32) : Nat → Nat → Pass → Pass
  | 0, _, p => p
  | fuel + 1, i, p =>
    if p.cut || decide (31 < i) then p
    else
      let w := (prog[i]?).getD 0
      let op := fieldOf w 28 4
      if op = 0 ∨ 7 < op then spend 1 id p
      else if op = 7 then
        runSteps r prog fuel (if jumpTaken w p then fieldOf w 0 5 else i + 1) (spend 1 id p)
      else runSteps r prog fuel (i + 1) (plainStep r w p)

/-! ## Classification (R327, R328) -/

/-- Table 11-4. -/
def tripData (i : Nat) (t : Trip) : W32 :=
  BitVec.ofNat 32
    (i * 2 ^ 24 + 2 ^ 23 * flag t.firstA + 2 ^ 22 * flag t.firstB + 2 ^ 21 * flag t.both + 2 ^ 20 * flag t.inLockup
      + t.resp.toNat * 2 ^ 18 + (if i < 7 then t.code.toNat else 0))

/-- R328: the trip is classified, with one entry that carries its time. -/
def classify (i : Fin 11) (t : Trip) (s : State) : State :=
  let disagree := !t.both && (t.onlyA || t.onlyB)
  let s1 := modSrc i (fun x => { x with trip := none }) s
  let s2 := when disagree (fun u => post (disagreeEvent i.val) { u with fk := { u.fk with dflt := true } }) s1
  logEntry
    { code := if disagree then 0x34 else tamperCode i.val, time := t.time, frac := t.frac, data := tripData i.val t } s2

/-- R328: one more evaluation of a trip. -/
def countTrip (e : SrcEval) (t : Trip) : Trip :=
  { t with
    evals := t.evals + 1, both := t.both || (e.a && e.b), onlyA := t.onlyA && e.a && !e.b
    onlyB := t.onlyB && e.b && !e.a
    firstA := if t.evals = 0 then e.a else t.firstA, firstB := if t.evals = 0 then e.b else t.firstB
    code := if t.evals = 0 then e.code else t.code, injected := t.injected && !(decide (t.evals = 0) && e.real) }

/-- R327: the episode of a disarmed source: eight evaluations in a row without a condition arm it again. -/
def countQuiet (e : SrcEval) (x : Source) : Source :=
  if x.armed then x
  else if e.a || e.b then { x with quiet := 0 }
  else if 7 ≤ x.quiet then { x with armed := true, quiet := 0 }
  else { x with quiet := x.quiet + 1 }

/-- R327, R328, R346, R352: what the pass means for one source. An injection with LIVETEST = 0 raises the trip event, unless
a real condition takes it in. A trip that only an injection started is not classified; a source
that is no longer evaluated is classified on the evaluations taken. -/
def settleSource (e : SrcEval) (i : Fin 11) (s : State) : State :=
  if e.seen then
    let s1 := modSrc i (countQuiet e) (when (e.inj && !e.real) (post (tripEvent i.val)) s)
    match (s1.fk.src.get i).trip with
    | none => s1
    | some t =>
      let t1 := countTrip e t
      if t1.injected then modSrc i (fun x => { x with trip := none }) s1
      else if 8 ≤ t1.evals then classify i t1 s1
      else modSrc i (fun x => { x with trip := some t1 }) s1
  else
    match (s.fk.src.get i).trip with
    | none => s
    | some t => classify i t s

/-! ## The pass -/

/-- R324: an accepted program and LMODE take effect at the pass start. A loop that is OFF is not driven (R321). -/
def passStart (s : State) : State :=
  let s1 := match s.fk.next with
    | some p => post 0x34A { s with fk := { s.fk with active := p, next := none, papply := false } }
    | none => s
  let loopo := vecOf 4 none ((List.finRange 4).map fun k =>
    if loopMode s1.fk.lmode k.val = 0 then none else s1.fk.loopo.get k)
  { s1 with fk := { s1.fk with lmodeNow := s1.fk.lmode, calAge := s1.fk.calAge + 1, loopo := loopo } }

/-- R326: passes on main power are timed from SYS, else from BKP, with event 34Dh when that begins. -/
def passTiming (sysTimed : Bool) (s : State) : State :=
  if s.pwr.phase = .lockup then s
  else
    let s1 := when (!sysTimed && !s.fk.fallback) (post 0x34D) s
    { s1 with fk := { s1.fk with fallback := !sysTimed } }

/-- R330: the battery warning. -/
def batteryCheck (mv : Word) (s : State) : State :=
  if !s.fk.bklow then
    if mv.toNat < 2200 then
      logNow 0x41 (mv.setWidth 32) (post 0x33A { s with fk := { s.fk with bklow := true, bkGood := 0 } })
    else s
  else if mv.toNat < 2300 then { s with fk := { s.fk with bkGood := 0 } }
  else if 7 ≤ s.fk.bkGood then { s with fk := { s.fk with bklow := false, bkGood := 0 } }
  else { s with fk := { s.fk with bkGood := s.fk.bkGood + 1 } }

/-- R318: the pass reads and clears the latch of one glitch detector; its event came with the glitch. -/
def readGlitch (isA latch : Bool) (p : Pass) : Pass :=
  let id := detectorEvent 10 isA
  let s := setHeld id latch p.st
  -- R156: a latched glitch and an injection in one evaluation are the glitch's one occurrence
  let s1 := if latch then { s with ev := noteEvaluation id true s.ev } else s
  let p1 := observe 10 isA latch 0 { p with st := s1 }
  { p1 with st := setHeld id false p1.st }

/-- R326: a Frisket pass. -/
def frisketPass (r : PassReading) (s : State) : State :=
  let s1 := batteryCheck r.vbatMv (passStart (passTiming r.sysTimed s))
  let none_ : SrcEval := { seen := false, a := false, b := false, real := false, inj := false, code := 0 }
  let p0 : Pass :=
    { st := { s1 with fk := { s1.fk with glitchA := false, glitchB := false } }, ev := Vector.replicate 11 none_
      driven := Vector.replicate 4 none, ticks := 0, cut := false, any := false }
  let p1 := readGlitch false s1.fk.glitchB (readGlitch true s1.fk.glitchA p0)
  let p2 := runSteps r s1.fk.active 32 0 p1
  let s2 := { p2.st with fk := { p2.st.fk with passOpen := p2.cut } }
  forAll sources (fun i => settleSource (p2.ev.get i) i) s2

/-- The BKP domain runs. -/
def bkpLive (s : State) : Bool := !decide (s.pwr.phase = .unpowered)

def execFrisketPass (r : PassReading) (s : State) : Host.Outcome State Fault Refusal :=
  complete (when (bkpLive s) (frisketPass r) s)

/-- R326: event 34Ch. -/
def execPassWindowEnd (s : State) : Host.Outcome State Fault Refusal :=
  complete (when (bkpLive s && s.fk.passOpen)
    (fun t => post 0x34C { t with fk := { t.fk with passOpen := false } }) s)

/-- Sequence 11-1, step 7: the clear line, ZOUT and the ALERT# of a command are released. -/
def execZeroizeRelease (s : State) : Host.Outcome State Fault Refusal :=
  complete (when (bkpLive s && s.key.clear)
    (fun t => { t with
      key := { t.key with clear := false }, fk := { t.fk with zout := false, pulseAlert := false } }) s)

/-- R318: one glitch detector latches; only a clear latch makes an occurrence. -/
def latchGlitch (isA : Bool) (s : State) : State :=
  let was := if isA then s.fk.glitchA else s.fk.glitchB
  if was then s
  else
    post (detectorEvent 10 isA)
      (if isA then { s with fk := { s.fk with glitchA := true } } else { s with fk := { s.fk with glitchB := true } })

/-- R318, R332: a supply glitch seen by detector A, by B or by both: the decision on source 10 falls at once. -/
def supplyGlitch (a b : Bool) (s : State) : State :=
  when (a || b) (decideTrip 10 false) (when b (latchGlitch false) (when a (latchGlitch true) s))

def execSupplyGlitch (a b : Bool) (s : State) : Host.Outcome State Fault Refusal :=
  complete (when (bkpLive s) (supplyGlitch a b) s)

/-- R318, R125: the LFXO stops: LFXLOST, events 008h and 009h, the RC fallback. -/
def execLfxoFailover (s : State) : Host.Outcome State Fault Refusal :=
  complete (when (bkpLive s && s.sys.lfxrun)
    (fun t => post 9 (post 8 { t with sys := { t.sys with lfxrun := false, bkprc := true, lfxlost := true } })) s)

/-! ## Apply checks (Table 11-3) -/

/-- Table 11-2: reserved opcode, or a reserved bit set. -/
def stepReserved (w : W32) : Bool :=
  match fieldOf w 28 4 with
  | 0 => decide (w &&& 0x0FFFFFFF ≠ 0)
  | 1 => decide (w &&& 0x007FFFFF ≠ 0)
  | 2 => decide (w &&& 0x0FFFFF00 ≠ 0)
  | 3 => decide (w &&& 0x00FFFFFF ≠ 0)
  | 4 => decide (w &&& 0x00FF0000 ≠ 0)
  | 5 => decide (w &&& 0x01FF0000 ≠ 0)
  | 6 => decide (w &&& 0x01FFFFFF ≠ 0)
  | 7 => decide (w &&& 0x03FFFFE0 ≠ 0)
  | _ => true

/-- Table 11-2: duration of a step in FCK ticks; loops that are OFF take none. -/
def stepTicks (lmode : BitVec 8) (w : W32) : Nat :=
  let three := ([0, 1, 2].filter fun j => bitOf w (25 + j)).length
  match fieldOf w 28 4 with
  | 2 => fieldOf w 0 8 + 1
  | 4 => 8 * (selectedLoops w lmode).length
  | 5 => 8 * three
  | 6 => 4 * three
  | _ => 1

/-- The longest path from step 0. -/
def longestPath (lmode : BitVec 8) (ws : List W32) : Nat :=
  (scanBack 0 (fun i w r => stepTicks lmode w + (following 0 i w r).foldl max 0) 0 ws).headD 0

/-- Some path from step 0 has no step that satisfies `p`. -/
def someAvoids (p : W32 → Bool) (ws : List W32) : Bool :=
  (scanBack true (fun i w r => !p w && (following true i w r).any id) 0 ws).headD true

/-- Check 4 for one loop: a DRIVE, a COMPARE or an ANALOG lacks on some path, or a use comes before the drive or after a
release. -/
def loopBad (ws : List W32) (k : Nat) : Bool :=
  let drives := fun w : W32 => selectsBit 1 (24 + k) w && !bitOf w 23
  let releases := fun w : W32 => selectsBit 1 (24 + k) w && bitOf w 23
  let uses := fun w : W32 => selectsBit 3 (24 + k) w || selectsBit 4 (24 + k) w
  let later := reaches uses (fun _ => false) ws
  someAvoids drives ws || someAvoids (selectsBit 3 (24 + k)) ws || someAvoids (selectsBit 4 (24 + k)) ws ||
  (reaches uses drives ws).headD false ||
  (scanBack false
    (fun i w r =>
      (releases w && (following false i w ((later.drop (i + 1)))).any id) || (following false i w r).any id)
    0 ws).headD false

/-- Table 11-3 against given modes: the number of the first check that fails, 0 where the program passes. -/
def applyCheck (lmode : BitVec 8) (caseen : BitVec 2) (prog : Vector W32 32) : Nat :=
  let ws := prog.toList
  if ws.any stepReserved then 1
  else if (List.range 32).any (fun i =>
      let w := (prog[i]?).getD 0
      decide (fieldOf w 28 4 = 7 ∧ fieldOf w 0 5 ≤ i)) then 2
  else if 262 < longestPath lmode ws then 3
  else if [0, 1, 2, 3].any (fun k => decide (loopMode lmode k ≠ 0) && loopBad ws k) then 4
  else if someAvoids (selectsBit 5 27) ws || [0, 1].any (fun j => bitOf caseen j && someAvoids (selectsBit 5 (25 + j)) ws)
  then 5
  else if [25, 26, 27].any (fun b => someAvoids (selectsBit 6 b) ws) then 6
  else if ws.any (fun w =>
      (decide (fieldOf w 28 4 = 4) || decide (fieldOf w 28 4 = 5)) && decide (fieldOf w 8 8 < fieldOf w 0 8)) then 7
  else 0

/-! ## FKCTL, FKST, FKRESP -/

/-- R324: PAPPLY in MAKEREADY, before closing: the staging program is checked against the modes of the same write (log
entry 26) and waits for the next pass start. Where it differs from the active one it is a legal change (R44). -/
def applyProgram (v : Word) (s : State) : State :=
  let p := s.fk.staging
  let err := applyCheck (BitVec.ofNat 8 (fieldOf v 8 8)) (BitVec.ofNat 2 (fieldOf v 6 2)) p
  if err ≠ 0 then raise 0x34B { s with fk := { s.fk with perr := BitVec.ofNat 4 err } }
  else if p = s.fk.active then { s with fk := { s.fk with perr := 0, next := some p, papply := true } }
  else if !legalRoom 0 s then raise 0x14 s
  else
    let s1 := beginChange { s with fk := { s.fk with perr := 0, papply := true } }
    if changeFree s1 then { s1 with fk := { s1.fk with next := some p } }
    else { s1 with sl := { s1.sl with deferred := s1.sl.deferred ++ [.program p] } }

/-- Table 11-8, R12, R324: a write of FKCTL, whose fields are all RWM. -/
def writeFkctl (v : Word) (s : State) : State :=
  let change := fkctlChange v s
  let papply := bitOf v 4
  if !inMakeready s then raise 0x24 s
  else if (isClosing s && (change || papply)) || (change && !legalRoom 0 s) then raise 0x14 s
  else when papply (applyProgram v) (rwmWrite change 0x2F v (setFkctl v) s)

def execProgramApply (w : Word) (s : State) : Host.Outcome State Fault Refusal :=
  complete (onBus (writeFkctl (w ||| 0x0010)) s)

/-- R474, Table 11-9: a write of FKST clears the trip bits, DFLT and LKTRIP where written as 1. -/
def writeFkst (v : Word) (s : State) : State :=
  { s with fk := { s.fk with
      ltrip := s.fk.ltrip &&& ~~~(BitVec.ofNat 4 (fieldOf v 12 4))
      ctrip := s.fk.ctrip &&& ~~~(BitVec.ofNat 2 (fieldOf v 10 2))
      caltrip := s.fk.caltrip && !bitOf v 9, etrip := if bitOf v 8 then 0 else s.fk.etrip
      dflt := s.fk.dflt && !bitOf v 7, lktrip := s.fk.lktrip && !bitOf v 6 } }

/-- Table 11-10: some field of the page written holds 11b. -/
def fkrespBad (v : Word) : Bool :=
  (List.range (if bitOf v 15 then 5 else 6)).any fun i => decide (fieldOf v (2 * i) 2 = 3)

/-- R331, Table 11-10: a write of FKRESP; the next read shows page 0. -/
def writeFkresp (v : Word) (s0 : State) : State :=
  let s := { s0 with fk := { s0.fk with respPage := false } }
  let change := if bitOf v 15 then decide (fieldOf v 0 10 ≠ s.fk.resp1.toNat) else decide (fieldOf v 0 12 ≠ s.fk.resp0.toNat)
  if !inMakeready s then raise 0x24 s
  else if fkrespBad v then raise 0x34B s
  else rwmWrite change 0x31 v (setFkresp v) s

def execFkrespWrite (w : Word) (s : State) : Host.Outcome State Fault Refusal :=
  complete (onBus (writeFkresp w) s)

/-- R347: a read of FKRESP shows a page; reads alternate. -/
def readFkresp (s : State) : Word × State :=
  (packWord [(flag s.fk.respPage, 15), (if s.fk.respPage then s.fk.resp1.toNat else s.fk.resp0.toNat, 0)],
    { s with fk := { s.fk with respPage := !s.fk.respPage } })

/-- The word that a read answers stands on D[15:0]. -/
def execFkrespRead (s : State) : Host.Outcome State Fault Refusal :=
  complete (onBus (fun t => answer (readFkresp t)) s)

end Sys2Proof.Machine
end

