-- ==== Sys2Proof/Machine/Rtc.lean ====
section
/-! DEFINITION. Machine/Rtc.lean: the real-time clock and its registers (R390 to R392), and what a set of it does to a lockout
(R42). -/

namespace Sys2Proof.Machine

/-- R390: a second ends; the count wraps. The clock runs wherever the BKP domain does. A set in the same st wins, and the
increment is lost (R401, log entry 48). -/
def secondTick (s : State) : State :=
  if setsRtc s.mark then s
  else countRun { s with bkp := { s.bkp with sec := s.bkp.sec + 1, frac := 0 } }

def execRtcSecond (s : State) : Host.Outcome State Fault Refusal :=
  complete (when (decide (s.pwr.phase ≠ .unpowered)) secondTick s)

/-- R392: a write of RTCL or RTCH is staged. -/
def stageRtc (high : Bool) (v : Word) (s : State) : State :=
  if high then { s with bkp := { s.bkp with stageH := some v } } else { s with bkp := { s.bkp with stageL := some v } }

def execRtcStageWrite (high : Bool) (v : Word) (s : State) : Host.Outcome State Fault Refusal :=
  complete (onBus (stageRtc high v) s)

/-- R42: a set of the RTC while a lockout is active sets LKSTART of a record. -/
def restamped (old new : W32) (r : SealRecord) : SealRecord :=
  if lockoutActive r old then { r with lkstart := new } else r

/-- R42, R60: the record before step 2 of an attempt that has not reached T0. -/
def restampOpening (old new : W32) (o : Opening) : Opening :=
  match o with
  | .counting pre began spoilt => .counting (restamped old new pre) began spoilt
  | .counted pre began spoilt => .counted (restamped old new pre) began spoilt
  | o => o

/-- R42, R43: the seal record follows a set of the RTC, also where the lockout holds because the RTC was lost. -/
def restampRecord (old new : W32) (s : State) : State :=
  let r := latestRecord s
  let s1 := { s with sl := { s.sl with opening := restampOpening old new s.sl.opening } }
  if lockoutHolds r old s then requestRing 1 ({ r with lkstart := new } : SealRecord).value .restamp s1 else s1

/-- R392: a write of RTCF sets the clock: code 40h with the seconds before the set, event 3A0h. -/
def setRtc (v : Word) (s : State) : State :=
  let old := s.bkp.sec
  let new := joinWords (s.bkp.stageL.getD (lowWord old)) (s.bkp.stageH.getD (highWord old))
  let s1 := { s with bkp := { s.bkp with
    sec := new, frac := v.setWidth 8, valid := true, stageL := none, stageH := none } }
  raise 0x3A0 (logNow 0x40 old (restampRecord old new s1))

def execRtcSet (v : Word) (s : State) : Host.Outcome State Fault Refusal :=
  completeMarked (if busLive s then .rtcSet else .none) (onBus (setRtc v) s)

/-- R391: a read of RTCL snapshots RTCH and the fraction. -/
def readRtcl (s : State) : Word × State :=
  (lowWord s.bkp.sec, { s with bkp := { s.bkp with snap := some (highWord s.bkp.sec, s.bkp.frac) } })

/-- R391: RTCH and RTCF as they read. Table 12-18 gives only FRAC from the snapshot: VALID is read as it stands (DESIGN CHOICE, log
entry 58). -/
def rtchRead (s : State) : Word := match s.bkp.snap with | some p => p.1 | none => highWord s.bkp.sec
def rtcfRead (s : State) : Word := rtcfWord s (match s.bkp.snap with | some p => p.2 | none => s.bkp.frac)

def execRtcSnapshotRead (s : State) : Host.Outcome State Fault Refusal :=
  complete (onBus (fun t => answer (readRtcl t)) s)

end Sys2Proof.Machine
end

