-- ==== Sys2Proof/Machine/SealUnit.lean ====
section
/-! DEFINITION. Machine/SealUnit.lean: SEALKEY and SEALST, the opening attempt (Sequence 02-1) and the closing (Sequence
02-2). -/

namespace Sys2Proof.Machine

/-! ## The token and the opening -/

/-- R40, R42: step 2 of Sequence 02-1: FAILS + 1, with LKSTART where a lockout begins, is committed before anything is
evaluated. Which moment of step 2 decides on the lockout and gives LKSTART is open: here it is that of the sixteenth SEALKEY write
(DESIGN CHOICE, log entry 58). -/
def beginOpening (tok : List Word) (s : State) : State :=
  let pre := latestRecord s
  let fails := if pre.fails = 0xFFFF then pre.fails else pre.fails + 1
  let began := decide (5 ≤ fails.toNat) && !lockoutActive pre s.bkp.sec
  let rec1 : SealRecord := { pre with fails := fails, lkstart := if began then s.bkp.sec else pre.lkstart }
  requestRing 1 rec1.value .count
    { s with sl := { s.sl with token := tok, opening := .counting pre began false } }

/-- R38, R39, R78: a write of SEALKEY. -/
def writeSealkey (v : Word) (s : State) : State :=
  if s.pwr.phase = .run ∧ s.sl.opening = .idle then
    let tok := s.sl.token ++ [v]
    if tok.length < 16 then { s with sl := { s.sl with token := tok } }
    else if 4031 < s.imp.next then raise 0x17 { s with sl := { s.sl with token := [] } }
    else beginOpening tok s
  else raise 0x16 s

def execSealkeyWrite (v : Word) (s : State) : Host.Outcome State Fault Refusal :=
  complete (onBus (writeSealkey v) s)

/-- R41, R52: at T0: CALSW asserted, no lockout on the record before step 2, and the token hashes to the verifier; with the
void flag set the token is not compared. A zeroize has spoilt the check (R416). -/
def openingOk (pre : SealRecord) (spoilt : Bool) (s : State) : Bool :=
  calswAsserted s && !lockoutActive pre s.bkp.sec && !spoilt &&
  (s.key.void || decide (sha256 (bytesOfWordsHigh s.sl.token) = s.key.ver))

/-- Sequence 02-1, step 3. -/
def openingCheck (s : State) : State :=
  match s.sl.opening with
  | .counted pre began spoilt =>
    { s with sl := { s.sl with opening := .checking (openingOk pre spoilt s) s.key.void began } }
  | _ => s

def execOpeningCheck (s : State) : Host.Outcome State Fault Refusal := complete (when (sysLive s) openingCheck s)

/-- Sequence 02-1, steps 4 and 5b: DENIED, event 010h, code 12h, and code 13h where step 2 began a lockout. -/
def deny (began : Bool) (s : State) : State :=
  let r := latestRecord s
  let s1 := raise 0x10 { s with sl := { s.sl with denied := true, opening := .idle, token := [] } }
  let s2 := logNow 0x12 (r.fails.setWidth 32) s1
  when began (logNow 0x13 (r.lkstart + 3600)) s2

/-- R385: step 5b queues one entry, or two. -/
def denyEntries (began : Bool) : Nat := if began then 2 else 1

/-- Sequence 02-1, steps 4 and 5a: GRANTED; FAILS = 0 and OPEN = 1 are committed, with VOIDS on the void-seal path. -/
def grant (void : Bool) (s : State) : State :=
  let r : SealRecord := { latestRecord s with fails := 0, isOpen := true, voids := void }
  requestRing 1 r.value .openSession
    { s with sl := { s.sl with granted := true, opening := .opening void, token := [] } }

/-- Sequence 02-1, step 4; a denial is held until the queue has places for its entries (R385). -/
def openingResult (s : State) : State :=
  match s.sl.opening with
  | .checking ok void began => if ok then grant void s else when (placesFree (denyEntries began) s) (deny began) s
  | _ => s

def execOpeningResult (s : State) : Host.Outcome State Fault Refusal := complete (when (sysLive s) openingResult s)

/-- Sequence 02-1, step 6a: MAKEREADY, event 011h, code 10h, or code 14h in a void-seal session (R52); held until the queue has
a place for it (R385). -/
def enterMakeready (s : State) : State :=
  match s.sl.opening with
  | .opened void =>
    if placesFree 1 s then
      let s1 := modeChange { s with pwr := { s.pwr with phase := .makeready }, sl := { s.sl with opening := .idle } }
      logNow (if void then 0x14 else 0x10) s1.sl.counter (raise 0x11 s1)
    else s
  | _ => s

def execMakereadyEntry (s : State) : Host.Outcome State Fault Refusal := complete (when (sysLive s) enterMakeready s)

/-! ## SEALST and the closing -/

/-- Table 02-4, R474: the W1C bits of a SEALST write. -/
def clearSealFlags (v : Word) (s : State) : State :=
  { s with sl := { s.sl with
      denied := s.sl.denied && !bitOf v 14, granted := s.sl.granted && !bitOf v 13, clref := s.sl.clref && !bitOf v 11 } }

/-- R47: CLOSE: ignored in RUN and while CLOSING; refused without verifier or record-signing key; else step 1 of Sequence
02-2. -/
def requestClose (s : State) : State :=
  if !inMakeready s || isClosing s then s
  else if bitOf s.key.pres 0 && bitOf s.key.pres 2 then { s with sl := { s.sl with closing := .waiting } }
  else raise 0x12 { s with sl := { s.sl with clref := true } }

/-- Table 02-4: a write of SEALST. What TKRST does to a check in progress is open: here it empties the buffer, and a check that
has not yet taken the token hashes the emptied one (DESIGN CHOICE, log entry 58). -/
def writeSealst (v : Word) (s : State) : State :=
  let s1 := clearSealFlags v s
  let s2 := if bitOf v 6 then { s1 with sl := { s1.sl with token := [] } } else s1
  when (bitOf v 5) requestClose s2

/-- R38: TKRST is bit 6. -/
def execTokenReset (w : Word) (s : State) : Host.Outcome State Fault Refusal :=
  complete (onBus (writeSealst (w ||| 0x0040)) s)

def execCloseRequest (w : Word) (s : State) : Host.Outcome State Fault Refusal :=
  complete (onBus (writeSealst (w ||| 0x0020)) s)

/-- Sequence 02-2, steps 3 and 4: the digest is computed, and the writer commits code 11h; step 5 follows that commit
(`afterEntry`). Where no position is left for code 11h (R46) the sequence is silent: here event 3B0h is raised and CLOSING stays
set until a reset, and start-up goes on without the entry (DESIGN CHOICE, log entry 58). -/
def closingDigest (s : State) : State :=
  let s1 := readLegal { s with sl := { s.sl with digest := legalDigest s, closing := .logging } }
  queueEntry (nowEntry 0x11 (digestData s1) s1) s1

/-- Held until the queue has a place for code 11h (R385). -/
def execClosingDigest (s : State) : Host.Outcome State Fault Refusal :=
  complete (when (sysLive s && closingDue s && digestFree s && placesFree 1 s) closingDigest s)

/-- Sequence 02-2, step 6. -/
def closingComplete (s : State) : State :=
  if s.sl.closing = .recorded then
    let s1 := enterRun { s with sl := { s.sl with closing := .idle, digerr := false }, key := clearVoid s.key }
    raise 0x13 s1
  else s

def execClosingComplete (s : State) : Host.Outcome State Fault Refusal := complete (when (sysLive s) closingComplete s)

end Sys2Proof.Machine
end

