-- ==== Sys2Proof/Machine/Pins.lean ====
section
/-! DEFINITION. Machine/Pins.lean: what the state shows at the pins (R75, Table 03-4; R92, R428), and the registers of the
composing port (R342, R343, R443). -/

namespace Sys2Proof.Machine

/-! ## EXTEST (Table 11-7) -/

/-- EXTEST is in effect: the session is open. The PRELOAD stage then drives the outputs. -/
def extest (s : State) : Bool := s.port.isOpen && decide (s.port.ir = 0)

/-! ## Pin states (Table 03-4) -/

/-- What a device does to a three-state or push-pull pin. -/
inductive Drive where
  /-- high impedance, or not driven -/
  | floating
  /-- held low by the internal pull-down of GLDE -/
  | pulledLow
  | level (high : Bool)
deriving DecidableEq, Repr

/-- An output with its data cell and its control cell: EXTEST drives it as those cells of PRELOAD say. -/
def scanned (data control : Nat) (own : Drive) (s : State) : Drive :=
  if extest s then (if bitOf s.port.preload control then .level (bitOf s.port.preload data) else .floating) else own

/-- An open-drain output with its cells: whether it is pulled low. -/
def scannedLow (data control : Nat) (own : Bool) (s : State) : Bool :=
  if extest s then bitOf s.port.preload control && !bitOf s.port.preload data else own

/-- D[15:0]: driven during the read cycles that the device serves, with the word read; with EXTEST as the cells say. -/
def pinsD (s : State) : Option Word :=
  if extest s then
    if bitOf s.port.preload 32 then
      some ((List.range 16).foldl (fun w k => setBit w k (bitOf s.port.preload (2 * k + 1))) 0)
    else none
  else if busLive s && s.bus.driven then some s.bus.data
  else none

/-- RDY is driven while CS# is active. -/
def pinRdy (v : PinLevels) (s : State) : Drive :=
  scanned 42 43 (if busLive s && !v.cs then .level v.rdy else .floating) s

/-- INT# and ALERT# are pulled low. -/
def pinInt (s : State) : Bool := scannedLow 44 45 (intLow s) s
def pinAlert (s : State) : Bool := scannedLow 46 47 (alertLow s) s

/-- A pin that Table 03-4 drives low in reset and in the power-fail sequence. -/
def drivenPin (inReset : Drive) (running : Drive) (s : State) : Drive :=
  if !s.pwr.vddio then .floating
  else
    match s.pwr.phase with
    | .unpowered | .lockup => .floating
    | .reset => inReset
    | .powerFail => .level false
    | .startup | .run | .makeready => running

/-- LIVE: driven low in reset and in the power-fail sequence, else as R88 and R91 say. -/
def pinLive (s : State) : Drive := scanned 50 51 (drivenPin (.level false) (.level s.sys.live) s) s

/-- GLTX is driven while SYS runs. -/
def pinGltx (v : PinLevels) (s : State) : Drive := scanned 54 55 (if linkPins s then .level v.gltx else .floating) s

/-- GLDE: low by its pull-down in reset; driven high around a frame that is sent (R288). -/
def pinGlde (v : PinLevels) (s : State) : Drive := scanned 57 58 (drivenPin .pulledLow (.level v.glde) s) s

/-- EXCP and EXCN of a channel: the level across the bridge in eighths of the amplitude, none where they are off (R164, Table
03-4). -/
def pinsExc (k : Chan) (s : State) : Option Int :=
  if sysLive s && (s.fe.ch.get k).drv then excitationLevel s else none

/-- TDO is driven while a register shifts, outside reset (IEEE 1149.1). -/
def tdoDriven (shifting : Bool) (s : State) : Bool := linkPins s && shifting

/-- XO oscillates but in LOCKUP and after a stop of the crystal (R125). -/
def xoRuns (s : State) : Bool :=
  match s.pwr.phase with
  | .unpowered | .lockup => false
  | _ => s.sys.xrun

/-- LFXO oscillates while the BKP domain is supplied (R65). -/
def lfxoRuns (s : State) : Bool := (s.pwr.vdd || s.pwr.vbat) && s.sys.lfxrun

/-! ## Composing port (R342, R343) -/

/-- Table 11-7: the data registers. -/
inductive DataRegister where
  | boundaryScan
  | idcode
  | laboratory
  | bypass
deriving DecidableEq, Repr

/-- Table 11-7, R343: the data register in effect; that of a gated instruction is the bypass bit until OPEN is set. -/
def dataRegister (p : Port) : DataRegister :=
  let n := p.ir.toNat
  if n = 0 then (if p.isOpen then .boundaryScan else .bypass)
  else if n = 1 then .idcode
  else if n = 2 then .boundaryScan
  else if 0x10 ≤ n ∧ n ≤ 0x1F then (if p.isOpen then .laboratory else .bypass)
  else .bypass

/-- R342: what the instruction register captures. -/
def irCapture : Byte := 0x01

/-- Table 11-7: IDCODE. -/
def idcode : W32 := 0x24816C57

/-- Data and control cell of an output; the control cell is 1 where the pin is driven (log entry 46). -/
def outputCells (d : Drive) : List Bool :=
  match d with
  | .floating | .pulledLow => [false, false]
  | .level b => [b, true]

/-- Data and control cell of an open-drain output. -/
def openDrainCells (low : Bool) : List Bool := [!low, low]

/-- Table 14-14: the 60 cells as they capture the pins, cell 0 first. -/
def boundaryList (v : PinLevels) (s : State) : List Bool :=
  let out := (pinsD s).getD 0
  ((List.range 16).map fun k => [bitOf v.d k, bitOf out k]).flatten ++ [(pinsD s).isSome] ++
  (List.range 6).map (bitOf v.a) ++ [v.cs, v.rd, v.wr] ++ outputCells (pinRdy v s) ++
  openDrainCells (pinInt s) ++ openDrainCells (pinAlert s) ++ [v.rst, v.busmode] ++
  outputCells (pinLive s) ++ [v.pfi, v.sync] ++ outputCells (pinGltx v s) ++ [v.glrx] ++
  outputCells (pinGlde v s) ++ [v.role]

/-- The same as a register, cell k in bit k. -/
def boundaryCells (v : PinLevels) (s : State) : BitVec 60 :=
  BitVec.ofNat 60 ((boundaryList v s).foldr (fun b n => 2 * n + flag b) 0)

end Sys2Proof.Machine
end

