-- ==== Sys2Proof/Machine/Tap.lean ====
section
/-! DEFINITION. Machine/Tap.lean: the composing port: the TAP controller and its registers, the gated openings, TEST (R342 to
R345). -/

namespace Sys2Proof.Machine

/-! ## Composing port -/

/-- Table 11-7: gated instructions. -/
def isGated (ir : Byte) : Bool := decide (ir = 0 ∨ (0x10 ≤ ir.toNat ∧ ir.toNat ≤ 0x1F))

/-- The port is supplied, and SYS is not stopped (Table 03-1, R344). -/
def portLive (s : State) : Bool := s.pwr.vddio && (sysLive s || decide (s.pwr.phase = .reset))

/-- R343: the session ends, and an opening in progress opens nothing. -/
def endSession (s : State) : State :=
  { s with port := { s.port with isOpen := false, pend := false, logged := false, ahead := 0 } }

/-- R343, R389: a gated instruction while SYS is held in reset: the store is cleared and both entries go to the backup buffer;
the reset holds PEND and OPEN at 0 (log entry 42). -/
def requestInReset (ir : Byte) (s : State) : State :=
  logNow 0x38 (BitVec.ofNat 32 (ir.toNat * 2 ^ 24)) (zeroize 0x21 s)

/-- R343: a gated instruction reaches Update-IR: outside a session it starts Sequence 11-2. -/
def portRequest (ir : Byte) (s : State) : State :=
  let s1 := { s with port := { s.port with ir := ir, irShift := ir, tap := .updateIr } }
  if s.port.isOpen || s.port.pend then s1 else if sysLive s then requestPort ir false s1 else requestInReset ir s1

/-! ### The TAP controller (IEEE 1149.1) -/

/-- The state that a rising edge of TCK leads to. -/
def tapNext (tms : Bool) : TapState → TapState
  | .testLogicReset => if tms then .testLogicReset else .runTestIdle
  | .runTestIdle | .updateDr | .updateIr => if tms then .selectDr else .runTestIdle
  | .selectDr => if tms then .selectIr else .captureDr
  | .captureDr | .shiftDr => if tms then .exit1Dr else .shiftDr
  | .exit1Dr => if tms then .updateDr else .pauseDr
  | .pauseDr => if tms then .exit2Dr else .pauseDr
  | .exit2Dr => if tms then .updateDr else .shiftDr
  | .selectIr => if tms then .testLogicReset else .captureIr
  | .captureIr | .shiftIr => if tms then .exit1Ir else .shiftIr
  | .exit1Ir => if tms then .updateIr else .pauseIr
  | .pauseIr => if tms then .exit2Ir else .pauseIr
  | .exit2Ir => if tms then .updateIr else .shiftIr

/-- A register that shifts towards TDO: TDI enters at the far end. -/
def shiftIn {n : Nat} (tdi : Bool) (v : BitVec n) : BitVec n := setBit (v >>> 1) (n - 1) tdi

/-- Capture-DR: what the data register in effect takes. The manual does not lay out the laboratory registers. -/
def captureData (v : PinLevels) (s : State) : Port :=
  match dataRegister s.port with
  | .boundaryScan => { s.port with cells := boundaryCells v s }
  | .idcode => { s.port with idShift := idcode }
  | .bypass => { s.port with bypass := false }
  | .laboratory => s.port

/-- Shift-DR. -/
def shiftData (tdi : Bool) (p : Port) : Port :=
  match dataRegister p with
  | .boundaryScan => { p with cells := shiftIn tdi p.cells }
  | .idcode => { p with idShift := shiftIn tdi p.idShift }
  | .bypass => { p with bypass := tdi }
  | .laboratory => p

/-- The bit at TDO while a register shifts; the manual does not lay out the laboratory registers. -/
def tdoBit (p : Port) : Option Bool :=
  match p.tap with
  | .shiftIr => some (bitOf p.irShift 0)
  | .shiftDr =>
    match dataRegister p with
    | .boundaryScan => some (bitOf p.cells 0)
    | .idcode => some (bitOf p.idShift 0)
    | .bypass => some p.bypass
    | .laboratory => none
  | _ => none

/-- The rising edge of a TCK cycle in the present state. -/
def tapRise (c : TckCycle) (s : State) : Port :=
  match s.port.tap with
  | .captureDr => captureData c.pins s
  | .shiftDr => shiftData c.tdi s.port
  | .captureIr => { s.port with irShift := irCapture }
  | .shiftIr => { s.port with irShift := shiftIn c.tdi s.port.irShift }
  | _ => s.port

/-- An instruction reaches Update-IR: a gated one asks for the port (R343), a free one ends the session. -/
def takeInstruction (ir : Byte) (s : State) : State :=
  if isGated ir then portRequest ir s
  else endSession { s with port := { s.port with ir := ir, irShift := ir, tap := .updateIr } }

/-- Test-Logic-Reset is entered: IDCODE, and the session ends (R342, R343). -/
def tapReset (s : State) : State := endSession { s with port := { s.port with ir := 1, tap := .testLogicReset } }

/-- One TCK cycle: the rising edge in the present state, then what the next state does at the falling edge. -/
def tapCycle (c : TckCycle) (s : State) : State :=
  let t := { s with port := { tapRise c s with tap := tapNext c.tms s.port.tap } }
  match t.port.tap with
  | .updateDr =>
    if dataRegister t.port = .boundaryScan then { t with port := { t.port with preload := t.port.cells } } else t
  | .updateIr => takeInstruction t.port.irShift t
  | .testLogicReset => tapReset t
  | _ => t

/-- R342, R343: a free instruction has reached Update-IR, or Test-Logic-Reset has been entered. -/
def tapReached (i : TapEvent) (s : State) : State :=
  match i with
  | .updateIr ir => if isGated ir then s else takeInstruction ir s
  | .testLogicReset => tapReset s

/-- R342: the TCK cycles before, then what they have led to (log entry 42). -/
def tapUpdate (u : TapUpdate) (s : State) : State := tapReached u.reached (forAll u.scan tapCycle s)

def execTapInstructionUpdate (u : TapUpdate) (s : State) : Host.Outcome State Fault Refusal :=
  complete (when (portLive s) (tapUpdate u) s)

/-! ### Openings -/

def execComposingPortRequest (ir : Byte) (s : State) : Host.Outcome State Fault Refusal :=
  complete (when (portLive s && isGated ir) (portRequest ir) s)

/-- Sequence 11-2, step 5: code 38h has committed: OPEN, event 354h; with TEST high the factory test state (R345). -/
def portOpened (s : State) : State :=
  raise 0x354 { s with port := { s.port with
    isOpen := true, pend := false, logged := false, factory := s.port.factory || s.port.test } }

/-- Sequence 11-2, step 4 has ended. -/
def portDue (s : State) : Bool := s.port.pend && s.port.logged

def execComposingPortOpened (s : State) : Host.Outcome State Fault Refusal :=
  complete (when (sysLive s && portDue s) portOpened s)

/-- R345: TEST is high for 1 µs or more: a gated opening, unless one is open or in progress. While SYS does not run only the
level shows (R453). -/
def testHigh (s : State) : State :=
  let s1 := { s with port := { s.port with test := true } }
  if !sysLive s then s1
  else if s.port.isOpen then { s1 with port := { s1.port with factory := true } }
  else if s.port.pend then s1
  else requestPort s.port.ir true s1

def execTestPinHigh (s : State) : Host.Outcome State Fault Refusal :=
  complete (when (decide (s.pwr.phase ≠ .unpowered)) testHigh s)

/-- R474, Table 11-12: a write of COMPST clears REF where written as 1. -/
def writeCompst (v : Word) (s : State) : State := { s with port := { s.port with ref := s.port.ref && !bitOf v 12 } }

end Sys2Proof.Machine
end

