-- ==== Sys2Proof/Machine/ToneUnit.lean ====
section
/-! DEFINITION. Machine/ToneUnit.lean: TONECTL, its parameter store, starts and stops of the tone detector and the results of
its blocks (R240 to R244). -/

namespace Sys2Proof.Machine

/-! ## Results -/

/-- R242: M of a block: the formula's, off by at most 2 × 10⁻⁶ × M + 2; that of a skipped block is open (log entry 12). -/
def blockMagnitude (draw : Nat) (b : ToneBlock) : W32 :=
  if b.skipped then Config.toneSkippedMag draw
  else
    let m := toneMagnitude b
    let lim : Int := 2 * m / 1000000 + 2
    BitVec.ofInt 32 (clampInt 0 (2 ^ 32 - 1) (m + clampInt (-lim) lim (Config.toneMagError draw)))

/-- R242: P of a block: the formula's, off by at most 2; open for a skipped block and for X = 0 (log entry 12). -/
def blockPhase (draw : Nat) (b : ToneBlock) : Word :=
  if b.skipped then Config.toneSkippedPhase draw
  else if b.re = 0 ∧ b.im = 0 then Config.toneZeroPhase draw
  else BitVec.ofInt 16 (phaseOf b.re b.im + clampInt (-2) 2 (Config.tonePhaseError draw))

/-- R243: ABOVE and its two events, evaluated while THEN = 1; an injection shows the magnitude on the other side of the
threshold (R149). -/
def setAbove (m : W32) (s : State) : State :=
  let cond := decide (s.tone.useThr.toNat ≤ m.toNat)
  let now := s.tone.thenBit && (if injected 0x151 s then true else if injected 0x152 s then false else cond)
  let s1 := { s with tone := { s.tone with above := now } }
  if s.tone.thenBit then edge 0x151 (now && !s.tone.above) (edge 0x152 (!now && s.tone.above) s1) else s1

/-- R243: the result of the completed block that is due. -/
def toneResult (s : State) : State :=
  match s.tone.due with
  | none => s
  | some b =>
    let d := nextDraw s
    let m := blockMagnitude d.1 b
    let again := shows 0x154 s.tone.rdy s
    let skips := shows 0x153 b.skipped s
    let s1 := { d.2 with tone := { s.tone with
      due := none, resM := m, resP := blockPhase d.1 b, resNo := s.tone.blockNo, blockNo := s.tone.blockNo + 1
      rdy := true, ovrn := s.tone.ovrn || again, skipd := skips } }
    setAbove m (edge 0x153 b.skipped (edge 0x154 s.tone.rdy (raise 0x150 s1)))

def execToneBlockResult (s : State) : Host.Outcome State Fault Refusal :=
  complete (when (sysLive s) toneResult s)

/-! ## TONECTL -/

/-- A parameter, 0000h where PIDX names none. -/
def toneParam (s : State) (i : Nat) : Word := (s.tone.param[i]?).getD 0

/-- R241: a START is refused. -/
def toneRefused (s : State) : Bool :=
  let c := s.fm.ch.get (chanOf s.tone.sel)
  let pinc := joinWords (toneParam s 0) (toneParam s 1)
  !c.valid || !(formeOps c.active).any isTone || decide ((toneParam s 4).toNat < 63) || decide (0x80000000 < pinc.toNat)

/-- R241, R243, R244: START: a block in progress is abandoned, the parameters are taken into use, blocks count from 0. A
result still due is written first. -/
def startTone (s : State) : State :=
  if toneRefused s then raise 0x155 s
  else
    let s1 := abandonBlock (toneResult s)
    { s1 with tone := { s1.tone with
        useCh := s1.tone.sel, usePinc := joinWords (toneParam s1 0) (toneParam s1 1)
        useThr := joinWords (toneParam s1 2) (toneParam s1 3), useNm1 := toneParam s1 4
        busy := true, skipcnt := 0, blockNo := 0 } }

/-- R241, R244: STOP. -/
def stopTone (s : State) : State :=
  let s1 := abandonBlock s
  { s1 with tone := { s1.tone with busy := false } }

/-- R240: the data word of an open data phase; PIDX 5 to 7 name no parameter. -/
def storeToneParam (v : Word) (s : State) : State :=
  { s with tone := { s.tone with dph := false, param := s.tone.param.setIfInBounds s.tone.pidx.toNat v } }

/-- Tables 08-10 and 08-11: a write of TONECTL: a data word, a pointer or the control form. STOP together with START acts
as a stop alone (log entry 25). -/
def writeTonectl (v : Word) (s : State) : State :=
  if s.tone.dph then storeToneParam v s
  else if bitOf v 15 then
    { s with tone := { s.tone with dph := true, pidx := BitVec.ofNat 3 (fieldOf v 0 3) } }
  else
    let s1 := { s with tone := { s.tone with
      sel := BitVec.ofNat 2 (fieldOf v 11 2), cont := bitOf v 6, thenBit := bitOf v 5 } }
    if bitOf v 13 then stopTone s1 else if bitOf v 14 then startTone s1 else s1

/-- R240: a read of TONECTL: parameter PIDX while the data phase is open, else the control form. -/
def readTonectl (s : State) : Word × State :=
  if s.tone.dph then (toneParam s s.tone.pidx.toNat, { s with tone := { s.tone with dph := false } })
  else (tonectlWord s, s)

def execTonePointerWrite (w : Word) (s : State) : Host.Outcome State Fault Refusal :=
  complete (onBus (writeTonectl (w ||| 0x8000)) s)

def execToneParamWrite (w : Word) (s : State) : Host.Outcome State Fault Refusal :=
  complete (onBus (writeTonectl w) s)

def execToneParamRead (s : State) : Host.Outcome State Fault Refusal :=
  complete (onBus (fun t => answer (readTonectl t)) s)

/-- R241: the control form has bit 15 clear. -/
def execToneStart (w : Word) (s : State) : Host.Outcome State Fault Refusal :=
  complete (onBus (writeTonectl ((w &&& 0x7FFF) ||| 0x4000)) s)

def execToneStop (w : Word) (s : State) : Host.Outcome State Fault Refusal :=
  complete (onBus (writeTonectl ((w &&& 0x7FFF) ||| 0x2000)) s)

/-- R245: a write of TONEST clears RDY and OVRN where written as 1. -/
def writeTonest (v : Word) (s : State) : State :=
  { s with tone := { s.tone with rdy := s.tone.rdy && !bitOf v 14, ovrn := s.tone.ovrn && !bitOf v 13 } }

end Sys2Proof.Machine
end

