-- ==== Sys2Proof/Machine/Bus.lean ====
section
/-! DEFINITION. Machine/Bus.lean: an access to any of the 64 word registers of Table 04-4, and the commands that carry one:
a register write, a short cycle, a strobe conflict, the remote accesses of a downlink (R105, R111, R112, R305). -/

namespace Sys2Proof.Machine

/-! ## Reads (Table 04-4) -/

/-- A register whose read changes nothing. -/
def plainRead (v : Word) (s : State) : Word × State := (v, s)

/-- Table 04-7: PATCH and the silicon step C. -/
def stepWord (s : State) : Word := packWord [(flag s.sys.patch, 15), (0x43, 0)]

/-- Table 04-8. -/
def modeWord (s : State) : Word := packWord [(flag s.pwr.busmode, 9), (flag s.pwr.role, 8), (modeState s, 0)]

/-- Table 04-9; SRST reads 1 while a keyed soft reset waits (R12, R132) and no mode change has come (R11). -/
def sysctlWord (s : State) : Word := packWord [(flag s.pwr.srst, 7), (s.sys.hbto.toNat, 4), (flag s.sys.wdrst, 3)]

/-- Table 09-9: KERNQ of channel KERNCTL.QSEL. -/
def kernqWord (s : State) : Word := (s.kern.ch.get (chanOf s.kern.qsel)).q

/-- Registers 00h to 0Fh. -/
def read0 (i : Nat) (s : State) : Word × State :=
  match i with
  | 0x0 => plainRead 0x4816 s
  | 0x1 => plainRead (stepWord s) s
  | 0x2 => plainRead (modeWord s) s
  | 0x3 => plainRead (sealstWord s) s
  | 0x4 => plainRead (sysctlWord s) s
  | 0x5 => plainRead s.sys.hbeat s
  | 0x6 => plainRead (clkstWord s) s
  | 0x7 => plainRead (pwrstWord s) s
  | 0x8 => plainRead (winselWord s) s
  | 0x9 => plainRead (s.bus.addr.setWidth 16) s
  | 0xA => plainRead ((s.bus.addr >>> 16).setWidth 16) s
  | 0xB => windatRead s
  | 0xC => plainRead (winstWord s) s
  | 0xD => plainRead (summary 0 s.ev) s
  | 0xE => plainRead (summary 1 s.ev) s
  | _ => plainRead (summary 2 s.ev) s

/-- Registers 10h to 1Fh; INJKEY is WO and reads 0. -/
def read1 (i : Nat) (s : State) : Word × State :=
  match i with
  | 0x0 => plainRead (summary 3 s.ev) s
  | 0x1 => plainRead (evrouteWord s) s
  | 0x2 => plainRead (injWord s) s
  | 0x3 => plainRead 0 s
  | 0x4 => plainRead (chctlWord 0 s) s
  | 0x5 => plainRead (chctlWord 1 s) s
  | 0x6 => plainRead (chctlWord 2 s) s
  | 0x7 => plainRead (chctlWord 3 s) s
  | 0x8 => plainRead (chstartWord s) s
  | 0x9 => plainRead (chstWord s) s
  | 0xA => plainRead (smpctlWord s) s
  | 0xB => plainRead (smplvlWord s) s
  | 0xC => readSmpdat s
  | 0xD => plainRead (excctlWord s) s
  | 0xE => plainRead (excstWord s) s
  | _ => plainRead (fmctlWord s) s

/-- Registers 20h to 2Fh. -/
def read2 (i : Nat) (s : State) : Word × State :=
  match i with
  | 0x0 => plainRead (fmstWord s) s
  | 0x1 => readGrpdly s
  | 0x2 => plainRead (casectlWord s) s
  | 0x3 => plainRead (casestWord s) s
  | 0x4 => readTonectl s
  | 0x5 => plainRead (tonestWord s) s
  | 0x6 => plainRead (calctlWord s) s
  | 0x7 => plainRead (calstWord s) s
  | 0x8 => plainRead (kernctlWord s) s
  | 0x9 => plainRead (kernqWord s) s
  | 0xA => plainRead (tempdieWord s) s
  | 0xB => plainRead (glctlWord s) s
  | 0xC => plainRead (glstWord s) s
  | 0xD => plainRead (glnodesWord s) s
  | 0xE => plainRead (glraWord s) s
  | _ => plainRead (fkctlWord s) s

/-- Registers 30h to 3Fh; SEALKEY is WO and reads 0. -/
def read3 (i : Nat) (s : State) : Word × State :=
  match i with
  | 0x0 => plainRead (fkstWord s) s
  | 0x1 => readFkresp s
  | 0x2 => readNvctl s
  | 0x3 => plainRead (nvstWord s) s
  | 0x4 => plainRead (nvprotWord s) s
  | 0x5 => plainRead (txnctlWord s) s
  | 0x6 => plainRead (impctlWord s) s
  | 0x7 => plainRead (impstWord s) s
  | 0x8 => readRtcl s
  | 0x9 => plainRead (rtchRead s) s
  | 0xA => plainRead (rtcfRead s) s
  | 0xB => plainRead 0 s
  | 0xC => plainRead (legalidWord s) s
  | 0xD => readKeyst s
  | 0xE => plainRead (compstWord s) s
  | _ => plainRead s.sys.scratch s

/-- A read of register `a`: the word, and the state with the side effects of the read. -/
def busRead (a : BitVec 6) (s : State) : Word × State :=
  let i := a.toNat % 16
  match a.toNat / 16 with
  | 0 => read0 i s
  | 1 => read1 i s
  | 2 => read2 i s
  | _ => read3 i s

/-! ## Writes -/

/-- R124, R12, R131: a write of SYSCTL: without the key event 021h; SRST; else HBTO and WDRST, which in RUN stay, with event
024h. -/
def writeSysctl (v : Word) (s : State) : State :=
  if fieldOf v 8 8 ≠ 0xC3 ∨ bitOf v 7 then softReset v s
  else if !inMakeready s then raise 0x24 s
  else rwmWrite (decide (v &&& 0x0078 ≠ sysctlWord s &&& 0x0078)) 0x04 v (setSysctl v) s

/-- Table 04-11: a write of CLKST clears XLOST, PLLLOST and LFXLOST where written as 1. -/
def writeClkst (v : Word) (s : State) : State :=
  { s with sys := { s.sys with
      xlost := s.sys.xlost && !bitOf v 10, plllost := s.sys.plllost && !bitOf v 9, lfxlost := s.sys.lfxlost && !bitOf v 8 } }

/-- Table 06-13: a write of EXCST clears REF where written as 1. -/
def writeExcst (v : Word) (s : State) : State := { s with fe := { s.fe with ref := s.fe.ref && !bitOf v 3 } }

/-- Table 07-9: a write of FMST clears REF where written as 1. -/
def writeFmst (v : Word) (s : State) : State := { s with fm := { s.fm with ref := s.fm.ref && !bitOf v 14 } }

/-- Table 07-11: a write of SMPLVL clears OVF where written as 1. -/
def writeSmplvl (v : Word) (s : State) : State := { s with fm := { s.fm with ovf := s.fm.ovf && !bitOf v 11 } }

/-- Table 04-13. -/
def writeScratch (v : Word) (s : State) : State := { s with sys := { s.sys with scratch := v } }

/-- Registers 00h to 0Fh. DEVID, STEP, MODE and PWRST are RO: the write is ignored (R12). -/
def write0 (i : Nat) (v : Word) (s : State) : State :=
  match i with
  | 0x3 => writeSealst v s
  | 0x4 => writeSysctl v s
  | 0x5 => heartbeat v s
  | 0x6 => writeClkst v s
  | 0x8 => writeWinsel v s
  | 0x9 => writeWinadr false v s
  | 0xA => writeWinadr true v s
  | 0xB => windatWrite v s
  | 0xC => writeWinst v s
  | 0xD => writeEvsum 0 v s
  | 0xE => writeEvsum 1 v s
  | 0xF => writeEvsum 2 v s
  | _ => s

/-- Registers 10h to 1Fh. CHST and SMPDAT are RO. -/
def write1 (i : Nat) (v : Word) (s : State) : State :=
  match i with
  | 0x0 => writeEvsum 3 v s
  | 0x1 => writeEvroute v s
  | 0x2 => writeInj v s
  | 0x3 => writeInjkey v s
  | 0x4 => writeChctl 0 v s
  | 0x5 => writeChctl 1 v s
  | 0x6 => writeChctl 2 v s
  | 0x7 => writeChctl 3 v s
  | 0x8 => writeChstart v s
  | 0xA => writeSmpctl v s
  | 0xB => writeSmplvl v s
  | 0xD => writeExcctl v s
  | 0xE => writeExcst v s
  | 0xF => writeFmctl v s
  | _ => s

/-- Registers 20h to 2Fh. CASEST, CALST, KERNQ, TEMPDIE, GLST and GLNODES are RO. -/
def write2 (i : Nat) (v : Word) (s : State) : State :=
  match i with
  | 0x0 => writeFmst v s
  | 0x1 => writeGrpdly v s
  | 0x2 => writeCasectl v s
  | 0x4 => writeTonectl v s
  | 0x5 => writeTonest v s
  | 0x6 => writeCalctl v s
  | 0x8 => writeKernctl v s
  | 0xB => writeGlctl v s
  | 0xE => writeGlra v s
  | 0xF => writeFkctl v s
  | _ => s

/-- Registers 30h to 3Fh. NVST, IMPST and LEGALID are RO. -/
def write3 (i : Nat) (v : Word) (s : State) : State :=
  match i with
  | 0x0 => writeFkst v s
  | 0x1 => writeFkresp v s
  | 0x2 => writeNvctl v s
  | 0x4 => writeNvprot v s
  | 0x5 => writeTxnctl v s
  | 0x6 => writeImpctl v s
  | 0x8 => stageRtc false v s
  | 0x9 => stageRtc true v s
  | 0xA => setRtc v s
  | 0xB => writeSealkey v s
  | 0xD => writeKeyst v s
  | 0xE => writeCompst v s
  | 0xF => writeScratch v s
  | _ => s

/-- A write of register `a`. -/
def busWrite (a : BitVec 6) (v : Word) (s : State) : State :=
  let i := a.toNat % 16
  match a.toNat / 16 with
  | 0 => write0 i v s
  | 1 => write1 i v s
  | 2 => write2 i v s
  | _ => write3 i v s

/-- What a register write still decides in its st: a set of the RTC (R401), an injected event (R156). -/
def markOf (a : BitVec 6) (v : Word) (s : State) : StMark :=
  if a = 0x3A ∧ busLive s then .rtcSet else if a = 0x12 then injectMark v s else .none

/-- R106, R397: a write of a register on the bus; a commit asked for in the st of PFAIL is counted. -/
def registerAccess (a : BitVec 6) (v : Word) (s : State) : State :=
  onBus (busWrite a v) (when (s.pwr.vddio && decide (a = 0x32)) (countDiscarded v) s)

def execRegisterWrite (a : BitVec 6) (v : Word) (s : State) : Host.Outcome State Fault Refusal :=
  completeMarked (markOf a v s) (registerAccess a v s)

/-! ## Short cycles and conflicts -/

/-- R111: a short read executes in full, a short write is discarded; either raises event 020h. -/
def shortCycle (a : Access) (s : State) : State :=
  match a with
  | .read r => raise 0x20 (answer (busRead r s))
  | .write _ _ => raise 0x20 s

def execShortCycle (a : Access) (s : State) : Host.Outcome State Fault Refusal :=
  complete (onBus (shortCycle a) s)

/-- R105: RD# and WR# low together, in the strobe-pair style: no access, event 022h. -/
def execStrobeConflict (s : State) : Host.Outcome State Fault Refusal :=
  complete (when (busLive s && !s.pwr.busmode) (raise 0x22) s)

/-! ## Remote accesses (R112, R305 to R307) -/

/-- One remote access: the word of the last read so far, and the state. An access that finds SYS held in reset is ignored
(R129). -/
def remoteAccess (x : Word × State) (p : Word × Word) : Word × State :=
  let a := BitVec.ofNat 6 (fieldOf p.1 0 6)
  if !sysLive x.2 then x
  else if bitOf p.1 15 then busRead a x.2
  else (x.1, busWrite a p.2 x.2)

/-- Table 10-3: RASTAT of an executed or refused downlink, and RADATA. -/
def reportAccess (h : Held) (data : Word) (s : State) : State :=
  if !h.unicast then s
  else
    let st := if h.refused then packWord [(1, 15), (1, 12), (fieldOf h.sfn 0 8, 0)]
      else packWord [(1, 15), (h.pairs.length, 8), (fieldOf h.sfn 0 8, 0)]
    { s with gl := { s.gl with rastat := st, radata := data } }

/-- R305, R306: the accesses held for this origin execute in order; a refused downlink executes nothing, with event 1ADh. -/
def downlinkExecute (s : State) : State :=
  match s.gl.held with
  | none => s
  | some h =>
    let s0 := { s with gl := { s.gl with held := none } }
    if h.refused then raise 0x1AD (reportAccess h 0 s0)
    else
      let r := h.pairs.foldl remoteAccess (0, s0)
      when (sysLive r.2) (fun t => raise 0x1AC (reportAccess h r.1 t)) r.2

/-- A pair of a downlink is a write, and its register. -/
def pairWrites (p : Word × Word) : Bool := !bitOf p.1 15
def pairRegister (p : Word × Word) : BitVec 6 := BitVec.ofNat 6 (fieldOf p.1 0 6)

/-- R305: what the accesses of a downlink still decide in their st, exactly as local ones do: the mark of each, from the state
that it finds. -/
def pairMarks : List (Word × Word) → Word × State → Bool × Bool
  | [], _ => (false, false)
  | p :: rest, x =>
    let r := pairMarks rest (remoteAccess x p)
    let here := pairWrites p && sysLive x.2
    (r.1 || (here && decide (pairRegister p = 0x3A)),
      r.2 || (here && decide (pairRegister p = 0x12) && injectsNow p.2 x.2))

/-- The mark that a downlink leaves. -/
def downlinkMark (s : State) : StMark :=
  match s.gl.held with
  | some h =>
    if sysLive s && !h.refused then
      let m := pairMarks h.pairs (0, { s with gl := { s.gl with held := none } })
      markOfSt m.1 m.2
    else .none
  | none => .none

/-- R397, R305: the writes of NVCTL in a downlink that falls in the st of PFAIL are counted as local ones are. -/
def discardPairs (s : State) : State :=
  match s.gl.held with
  | some h =>
    forAll (if h.refused then [] else h.pairs)
      (fun p => when (pairWrites p && decide (pairRegister p = 0x32)) (countDiscarded p.2)) s
  | none => s

def execDownlinkExecute (s : State) : Host.Outcome State Fault Refusal :=
  completeMarked (downlinkMark s) (if sysLive s then downlinkExecute s else discardPairs s)

end Sys2Proof.Machine
end

