-- ==== Sys2Proof/Machine/Dispatch.lean ====
section
/-! DEFINITION. Machine/Dispatch.lean: one arm for each command. -/

namespace Sys2Proof.Machine

def exec (i : Instr) (s : State) : Host.Outcome State Fault Refusal :=
  match i with
  | .powerOn env => Sys2Proof.Machine.execPowerOn env s
  | .rstPinReset ns => Sys2Proof.Machine.execRstPinReset ns s
  | .softReset w => Sys2Proof.Machine.execSoftReset w s
  | .watchdogReset => Sys2Proof.Machine.execWatchdogReset s
  | .resetRelease env => Sys2Proof.Machine.execResetRelease env s
  | .backupMigration n => Sys2Proof.Machine.execBackupMigration n s
  | .powerupDigest => Sys2Proof.Machine.execPowerupDigest s
  | .startupComplete => Sys2Proof.Machine.execStartupComplete s
  | .powerFail => Sys2Proof.Machine.execPowerFail s
  | .shadowStoreDone => Sys2Proof.Machine.execShadowStoreDone s
  | .powerFailRecovery env => Sys2Proof.Machine.execPowerFailRecovery env s
  | .vbatLoss => Sys2Proof.Machine.execVbatLoss s
  | .bkpSupplySwitch sw => Sys2Proof.Machine.execBkpSupplySwitch sw s
  | .vddioLoss => Sys2Proof.Machine.execVddioLoss s
  | .hbeatWrite v => Sys2Proof.Machine.execHbeatWrite v s
  | .heartbeatStale => Sys2Proof.Machine.execHeartbeatStale s
  | .liveTimebaseBoundary => Sys2Proof.Machine.execLiveTimebaseBoundary s
  | .strobeConflict => Sys2Proof.Machine.execStrobeConflict s
  | .shortCycle a => Sys2Proof.Machine.execShortCycle a s
  | .registerWrite a v => Sys2Proof.Machine.execRegisterWrite a v s
  | .windowSelect v => Sys2Proof.Machine.execWindowSelect v s
  | .windowAddressWrite high v => Sys2Proof.Machine.execWindowAddressWrite high v s
  | .windatRead => Sys2Proof.Machine.execWindatRead s
  | .evstatClear v => Sys2Proof.Machine.execEvstatClear v s
  | .evenWrite v => Sys2Proof.Machine.execEvenWrite v s
  | .counterPreset v => Sys2Proof.Machine.execCounterPreset v s
  | .formeEditWrite v => Sys2Proof.Machine.execFormeEditWrite v s
  | .caseWrite v => Sys2Proof.Machine.execCaseWrite v s
  | .calsetWrite v => Sys2Proof.Machine.execCalsetWrite v s
  | .fkprogWrite v => Sys2Proof.Machine.execFkprogWrite v s
  | .glnodeQueueWrite v => Sys2Proof.Machine.execGlnodeQueueWrite v s
  | .nvarrLoad v => Sys2Proof.Machine.execNvarrLoad v s
  | .shadowWrite v => Sys2Proof.Machine.execShadowWrite v s
  | .evsumClear n v => Sys2Proof.Machine.execEvsumClear n v s
  | .injkeyWrite v => Sys2Proof.Machine.execInjkeyWrite v s
  | .injectStart v => Sys2Proof.Machine.execInjectStart v s
  | .injectionEnd => Sys2Proof.Machine.execInjectionEnd s
  | .mailboxEntry => Sys2Proof.Machine.execMailboxEntry s
  | .mailboxFullSignal => Sys2Proof.Machine.execMailboxFullSignal s
  | .selfCheckTick noiseBad clockBad => Sys2Proof.Machine.execSelfCheckTick noiseBad clockBad s
  | .sealkeyWrite v => Sys2Proof.Machine.execSealkeyWrite v s
  | .tokenReset w => Sys2Proof.Machine.execTokenReset w s
  | .openingCheck => Sys2Proof.Machine.execOpeningCheck s
  | .openingResult => Sys2Proof.Machine.execOpeningResult s
  | .makereadyEntry => Sys2Proof.Machine.execMakereadyEntry s
  | .closeRequest w => Sys2Proof.Machine.execCloseRequest w s
  | .closingDigest => Sys2Proof.Machine.execClosingDigest s
  | .closingComplete => Sys2Proof.Machine.execClosingComplete s
  | .excctlWrite w => Sys2Proof.Machine.execExcctlWrite w s
  | .chctlConfigWrite k w => Sys2Proof.Machine.execChctlConfigWrite k w s
  | .channelStartRequest k w => Sys2Proof.Machine.execChannelStartRequest k w s
  | .channelStopRequest k w => Sys2Proof.Machine.execChannelStopRequest k w s
  | .chstartGo w => Sys2Proof.Machine.execChstartGo w s
  | .chstartStop w => Sys2Proof.Machine.execChstartStop w s
  | .chstartCancel w => Sys2Proof.Machine.execChstartCancel w s
  | .cancelTakesEffect => Sys2Proof.Machine.execCancelTakesEffect s
  | .syncEdge => Sys2Proof.Machine.execSyncEdge s
  | .startTakesEffect => Sys2Proof.Machine.execStartTakesEffect s
  | .excitationOn => Sys2Proof.Machine.execExcitationOn s
  | .firstSample k => Sys2Proof.Machine.execFirstSample k s
  | .stopTakesEffect => Sys2Proof.Machine.execStopTakesEffect s
  | .excitationReversal => Sys2Proof.Machine.execExcitationReversal s
  | .gapMonitorReading k r => Sys2Proof.Machine.execGapMonitorReading k r s
  | .engineTurn t => Sys2Proof.Machine.execEngineTurn t s
  | .modulatorResetEnd k => Sys2Proof.Machine.execModulatorResetEnd k s
  | .crystalStop => Sys2Proof.Machine.execCrystalStop s
  | .pllLockLoss => Sys2Proof.Machine.execPllLockLoss s
  | .crystalReturn => Sys2Proof.Machine.execCrystalReturn s
  | .tempConversionDone c => Sys2Proof.Machine.execTempConversionDone c s
  | .formeLoad w => Sys2Proof.Machine.execFormeLoad w s
  | .formeLoadComplete => Sys2Proof.Machine.execFormeLoadComplete s
  | .fifoFlush w => Sys2Proof.Machine.execFifoFlush w s
  | .smpdatRead => Sys2Proof.Machine.execSmpdatRead s
  | .caseCopy w => Sys2Proof.Machine.execCaseCopy w s
  | .caseSwitch w => Sys2Proof.Machine.execCaseSwitch w s
  | .caseStoreComplete => Sys2Proof.Machine.execCaseStoreComplete s
  | .crossfadeEnd k => Sys2Proof.Machine.execCrossfadeEnd k s
  | .grpdlySelect w => Sys2Proof.Machine.execGrpdlySelect w s
  | .grpdlyRead => Sys2Proof.Machine.execGrpdlyRead s
  | .tonePointerWrite w => Sys2Proof.Machine.execTonePointerWrite w s
  | .toneParamWrite w => Sys2Proof.Machine.execToneParamWrite w s
  | .toneParamRead => Sys2Proof.Machine.execToneParamRead s
  | .toneStart w => Sys2Proof.Machine.execToneStart w s
  | .toneStop w => Sys2Proof.Machine.execToneStop w s
  | .toneBlockResult => Sys2Proof.Machine.execToneBlockResult s
  | .calStore w => Sys2Proof.Machine.execCalStore w s
  | .calStoreComplete => Sys2Proof.Machine.execCalStoreComplete s
  | .calReload w => Sys2Proof.Machine.execCalReload w s
  | .kernEpochEnd k => Sys2Proof.Machine.execKernEpochEnd k s
  | .kernSolveEnd => Sys2Proof.Machine.execKernSolveEnd s
  | .kernPendingTimeout k => Sys2Proof.Machine.execKernPendingTimeout k s
  | .kernReset w => Sys2Proof.Machine.execKernReset w s
  | .superframeOrigin => Sys2Proof.Machine.execSuperframeOrigin s
  | .beaconReceived f e => Sys2Proof.Machine.execBeaconReceived f e s
  | .beaconMissed => Sys2Proof.Machine.execBeaconMissed s
  | .uplinkSend => Sys2Proof.Machine.execUplinkSend s
  | .uplinkReceived a f delta => Sys2Proof.Machine.execUplinkReceived a f delta s
  | .joinReceived a f delta => Sys2Proof.Machine.execJoinReceived a f delta s
  | .nodeSlotEnd a => Sys2Proof.Machine.execNodeSlotEnd a s
  | .remoteAccessGo w => Sys2Proof.Machine.execRemoteAccessGo w s
  | .downlinkSend => Sys2Proof.Machine.execDownlinkSend s
  | .downlinkReceived f => Sys2Proof.Machine.execDownlinkReceived f s
  | .broadcastReceived f => Sys2Proof.Machine.execBroadcastReceived f s
  | .downlinkExecute => Sys2Proof.Machine.execDownlinkExecute s
  | .linkRestart w => Sys2Proof.Machine.execLinkRestart w s
  | .lnkLockLoss => Sys2Proof.Machine.execLnkLockLoss s
  | .linkCheckValue => Sys2Proof.Machine.execLinkCheckValue s
  | .frisketPass r => Sys2Proof.Machine.execFrisketPass r s
  | .passWindowEnd => Sys2Proof.Machine.execPassWindowEnd s
  | .zeroizeRelease => Sys2Proof.Machine.execZeroizeRelease s
  | .supplyGlitch a b => Sys2Proof.Machine.execSupplyGlitch a b s
  | .lfxoFailover => Sys2Proof.Machine.execLfxoFailover s
  | .programApply w => Sys2Proof.Machine.execProgramApply w s
  | .fkrespWrite w => Sys2Proof.Machine.execFkrespWrite w s
  | .fkrespRead => Sys2Proof.Machine.execFkrespRead s
  | .keyDataWord w => Sys2Proof.Machine.execKeyDataWord w s
  | .keyLoad w => Sys2Proof.Machine.execKeyLoad w s
  | .keyCommit w => Sys2Proof.Machine.execKeyCommit w s
  | .keyErase w => Sys2Proof.Machine.execKeyErase w s
  | .keySlotWritten => Sys2Proof.Machine.execKeySlotWritten s
  | .keyRead w => Sys2Proof.Machine.execKeyRead w s
  | .keyHostRead => Sys2Proof.Machine.execKeyHostRead s
  | .keyZeroize w => Sys2Proof.Machine.execKeyZeroize w s
  | .tapInstructionUpdate m => Sys2Proof.Machine.execTapInstructionUpdate m s
  | .composingPortRequest ir => Sys2Proof.Machine.execComposingPortRequest ir s
  | .composingPortOpened => Sys2Proof.Machine.execComposingPortOpened s
  | .testPinHigh => Sys2Proof.Machine.execTestPinHigh s
  | .nvCommit w => Sys2Proof.Machine.execNvCommit w s
  | .nvDiscard w => Sys2Proof.Machine.execNvDiscard w s
  | .shadowStoreCommand w => Sys2Proof.Machine.execShadowStoreCommand w s
  | .slugWrite w => Sys2Proof.Machine.execSlugWrite w s
  | .slugDataWord w => Sys2Proof.Machine.execSlugDataWord w s
  | .slugRead w => Sys2Proof.Machine.execSlugRead w s
  | .slugReadWord => Sys2Proof.Machine.execSlugReadWord s
  | .arrayOperationDone => Sys2Proof.Machine.execArrayOperationDone s
  | .refreshPage m => Sys2Proof.Machine.execRefreshPage m s
  | .txnOpen w => Sys2Proof.Machine.execTxnOpen w s
  | .txnClose w => Sys2Proof.Machine.execTxnClose w s
  | .txnSignedClose w => Sys2Proof.Machine.execTxnSignedClose w s
  | .txnSignDone => Sys2Proof.Machine.execTxnSignDone s
  | .txnAbort w => Sys2Proof.Machine.execTxnAbort w s
  | .imprintVerify w => Sys2Proof.Machine.execImprintVerify w s
  | .imprintVerifyDone => Sys2Proof.Machine.execImprintVerifyDone s
  | .rtcSecond => Sys2Proof.Machine.execRtcSecond s
  | .rtcStageWrite high v => Sys2Proof.Machine.execRtcStageWrite high v s
  | .rtcSet v => Sys2Proof.Machine.execRtcSet v s
  | .rtcSnapshotRead => Sys2Proof.Machine.execRtcSnapshotRead s
  | .vcapHoldUpLost => Sys2Proof.Machine.execVcapHoldUpLost s
  | .vddioReturn => Sys2Proof.Machine.execVddioReturn s
  | .pllRelock => Sys2Proof.Machine.execPllRelock s
  | .downlinkSlotEnd => Sys2Proof.Machine.execDownlinkSlotEnd s
  | .neverWritableArrayWrite v => Sys2Proof.Machine.execNeverWritableArrayWrite v s

end Sys2Proof.Machine
end

