-- ==== Sys2Proof/Safety.lean ====
section
/-! DEFINITION. Safety.lean: what the statements call a good state and a completed command. -/

namespace Sys2Proof.Machine

/-- The command completes in the state: `exec` answers a next state. -/
def Completes (c : Instr) (s : State) : Prop := ∃ t, exec c s = .next t

/-- The image that a running shadow store writes. -/
def storeImage : Option ArrayOp → Option (List Host.Cell)
  | some (.store _ _ image _) => some image
  | _ => none

/-- Every array of bytes of the state is in canonical form: the EEPROM, the shadow SRAM, both banks of its twin, the image
of a shadow store that runs. -/
def MemoryGood (s : State) : Prop :=
  Memory.wf (0xFF : Byte) s.nv.mem = true ∧ Memory.wf (0 : Byte) s.sh.sram = true ∧
  Memory.wf (0 : Byte) s.sh.bankA.image = true ∧ Memory.wf (0 : Byte) s.sh.bankB.image = true ∧
  ∀ image, storeImage s.nv.running = some image → Memory.wf (0 : Byte) image = true

/-- R384: no bit of partition I has gone from 0 back to 1. -/
def ImprintKept (s t : State) : Prop := ∀ a, 0x10000 ≤ a → nvByte t a &&& nvByte s a = nvByte t a

/-! ## Accesses and the end of a command -/

/-- The state that a served local access acts on: the access has been seen, and D is not driven yet (R426, Table 03-4). -/
def served (s : State) : State := { s with bus := { s.bus with localSeen := true, driven := false } }

/-- No ring is at its last sequence number (R378). -/
def RingsUsable (s : State) : Prop := ∀ r : Fin 64, nextSlot r s ≠ none

/-- What the end of a command may do besides its own effect where no reset is taken: a running injection ends (R475), held
steps of the log go on (R385), the NV controller starts an operation (R362) and drops log entries for which no position is
left (R386), without its code 38h an opening of the composing port ends (R344), LIVE stops (R91), and the st is over. -/
def Settles (s t : State) : Prop :=
  t = { s with
    ev := { s.ev with
      sticky := t.ev.sticky, count := t.ev.count, ovf := t.ev.ovf, act := t.ev.act, abrt := t.ev.abrt }
    sys := { s.sys with liveOn := t.sys.liveOn, live := t.sys.live, liveHeld := t.sys.liveHeld }
    nv := { s.nv with
      running := t.nv.running, sealQueue := t.nv.sealQueue, host := t.nv.host, legal := t.nv.legal
      bufPage := t.nv.bufPage, bufWords := t.nv.bufWords, refresh := t.nv.refresh }
    imp := { s.imp with queue := t.imp.queue, heldSteps := t.imp.heldSteps }
    bkp := { s.bkp with buffer := t.bkp.buffer, lost := t.bkp.lost, refreshPage := t.bkp.refreshPage }
    port := { s.port with pend := t.port.pend, ref := t.port.ref, ahead := t.port.ahead }
    mark := .none } ∧
  (∀ id, isSticky id s = true → isSticky id t = true) ∧
  (t.ev.act = true → s.ev.act = true) ∧ (t.sys.liveOn = true → s.sys.liveOn = true) ∧
  (t.port.pend = true → s.port.pend = true) ∧ (mayStart s = false → t.nv = s.nv ∧ t.port = s.port)

/-- The commands that are accesses on the host bus. -/
def isAccess : Instr → Bool
  | .softReset _ | .hbeatWrite _ | .strobeConflict | .shortCycle _ | .registerWrite .. | .windowSelect _
  | .windowAddressWrite .. | .windatRead | .evstatClear _ | .evenWrite _ | .counterPreset _ | .formeEditWrite _
  | .caseWrite _ | .calsetWrite _ | .fkprogWrite _ | .glnodeQueueWrite _ | .nvarrLoad _ | .shadowWrite _
  | .evsumClear .. | .injkeyWrite _ | .injectStart _ | .sealkeyWrite _ | .tokenReset _ | .closeRequest _
  | .excctlWrite _ | .chctlConfigWrite .. | .channelStartRequest .. | .channelStopRequest .. | .chstartGo _
  | .chstartStop _ | .chstartCancel _ | .formeLoad _ | .fifoFlush _ | .smpdatRead | .caseCopy _ | .caseSwitch _
  | .grpdlySelect _ | .grpdlyRead | .tonePointerWrite _ | .toneParamWrite _ | .toneParamRead | .toneStart _
  | .toneStop _ | .calStore _ | .calReload _ | .kernReset _ | .remoteAccessGo _ | .linkRestart _ | .programApply _
  | .fkrespWrite _ | .fkrespRead | .keyDataWord _ | .keyLoad _ | .keyCommit _ | .keyErase _ | .keyRead _
  | .keyHostRead | .keyZeroize _ | .nvCommit _ | .nvDiscard _ | .shadowStoreCommand _ | .slugWrite _
  | .slugDataWord _ | .slugRead _ | .slugReadWord | .txnOpen _ | .txnClose _ | .txnSignedClose _ | .txnAbort _
  | .imprintVerify _ | .rtcStageWrite .. | .rtcSet _ | .rtcSnapshotRead | .neverWritableArrayWrite _ => true
  | _ => false

/-- The commands of the SYS, MOD, LNK and NVC domains that are no accesses. -/
def isSysCommand : Instr → Bool
  | .rstPinReset _ | .watchdogReset | .backupMigration _ | .powerupDigest | .startupComplete | .heartbeatStale
  | .liveTimebaseBoundary | .injectionEnd | .mailboxEntry | .mailboxFullSignal | .selfCheckTick .. | .openingCheck
  | .openingResult | .makereadyEntry | .closingDigest | .closingComplete | .cancelTakesEffect | .syncEdge
  | .startTakesEffect | .excitationOn | .firstSample _ | .stopTakesEffect | .excitationReversal
  | .gapMonitorReading .. | .engineTurn _ | .modulatorResetEnd _ | .crystalStop | .pllLockLoss | .crystalReturn
  | .tempConversionDone _ | .formeLoadComplete | .caseStoreComplete | .crossfadeEnd _ | .toneBlockResult
  | .calStoreComplete | .kernEpochEnd _ | .kernSolveEnd | .kernPendingTimeout _ | .superframeOrigin
  | .beaconReceived .. | .beaconMissed | .uplinkSend | .uplinkReceived .. | .joinReceived .. | .nodeSlotEnd _
  | .downlinkSend | .downlinkReceived _ | .broadcastReceived _ | .downlinkExecute | .lnkLockLoss | .linkCheckValue
  | .keySlotWritten | .composingPortOpened | .refreshPage _ | .txnSignDone | .imprintVerifyDone | .pllRelock
  | .downlinkSlotEnd => true
  | _ => false

/-! ## What the controller starts next -/

/-- R362, orders 3 and 4: the host's operation, checked again (R360), a page of a legal store (R361), an examination by refresh
(R366, R367), where neither the seal unit nor the log has anything to start. -/
def StartsHostOrRefresh (t u : State) : Prop :=
  (∀ p ws, t.nv.host = some (.page p ws) →
    ((inL p = true ∧ inMakeready t = false) ∨ isProtected t.nv.bp p = true →
      u.nv.host = none ∧ u.nv.bufPage = none ∧ u.nv.bufWords = [] ∧ isSticky 0x364 u = true) ∧
    ((inL p = true → inMakeready t = true) → isProtected t.nv.bp p = false →
      if inL p = true ∧ changeFree t = false then u.nv.host = t.nv.host ∧ u.nv.running = none
      else u.nv.host = none ∧ u.nv.running = some (.hostPage p ws))) ∧
  (∀ r v, t.nv.host = some (.ring r v) → u.nv.host = none ∧ u.nv.running = some (.hostRing r v)) ∧
  (∀ p bs rest, t.nv.host = none → nextLegalPage t.nv.legal = some (p, bs, rest) →
    if changeFree t then u.nv.running = some (.legalPage p bs) ∧ u.nv.legal = rest
    else u.nv.running = none ∧ u.nv.legal = t.nv.legal) ∧
  (t.nv.host = none → nextLegalPage t.nv.legal = none → t.pwr.phase = .run →
    ∀ m, t.nv.refresh = some m →
      u.nv.refresh = none ∧ u.bkp.refreshPage = (if 2047 ≤ t.bkp.refreshPage then 0 else t.bkp.refreshPage + 1) ∧
      (2047 ≤ t.bkp.refreshPage → isSticky 0x36D u = true) ∧
      (pageState t.bkp.refreshPage t = 2 → u.nv.running = none ∧ isSticky 0x36B u = true) ∧
      (pageState t.bkp.refreshPage t ≠ 2 →
        u.nv.running = if m.weak = true ∨ pageState t.bkp.refreshPage t = 1 then some (.refresh t.bkp.refreshPage)
          else none)) ∧
  (t.nv.host = none → nextLegalPage t.nv.legal = none → t.nv.refresh = none → u.nv.running = none)

/-- R362: what the controller starts in a state `t` in which it may start an operation: the seal unit's ring commits come first,
then the log, with its marker where one is due, then the rest. Entries that no position takes are dropped (R386). -/
def StartsNext (t u : State) : Prop :=
  (∀ r v job rest, t.nv.sealQueue = (r, v, job) :: rest →
    u.nv.running = some (.sealRing r v job) ∧ u.nv.sealQueue = rest ∧ u.imp.queue = t.imp.queue ∧
    u.nv.host = t.nv.host) ∧
  (t.nv.sealQueue = [] → ∀ c, markerDue t = some c → u.nv.running = some (.marker c) ∧ u.nv.host = t.nv.host) ∧
  (t.nv.sealQueue = [] → markerDue t = none →
    (∀ e es, t.imp.queue = e :: es → fate (sessionOpen t) e.code t.imp.next = .takes →
      u.imp.queue = t.imp.queue ∧ u.nv.host = t.nv.host ∧
      ∃ n, u.nv.running = some (.imprint 0 n) ∧ 1 ≤ n ∧ n ≤ t.imp.queue.length ∧
        (t.imp.next + (n - 1)) / 4 = t.imp.next / 4) ∧
    (t.imp.queue ≠ [] → (∀ e ∈ t.imp.queue, fate (sessionOpen t) e.code t.imp.next = .none) →
      u.imp.queue = [] ∧ isSticky 0x3B0 u = true) ∧
    (t.imp.queue = [] → StartsHostOrRefresh t u))

/-! ## The window -/

/-- R116: the window address after a WINDAT access. -/
def nextAddr (s : State) : BitVec 24 := if s.bus.hold then s.bus.addr else s.bus.addr + 1

/-- The row of the table that writes `v` to the array that WINSEL selects. -/
def isRowOf (c : Instr) (v : Word) (s : State) : Prop :=
  (c = .evstatClear v ∧ s.bus.array = 0) ∨ (c = .evenWrite v ∧ s.bus.array = 1) ∨
  (c = .counterPreset v ∧ s.bus.array = 2) ∨ (c = .formeEditWrite v ∧ s.bus.array = 3) ∨
  (c = .caseWrite v ∧ (s.bus.array = 4 ∨ s.bus.array = 5)) ∨ (c = .calsetWrite v ∧ s.bus.array = 6) ∨
  (c = .glnodeQueueWrite v ∧ s.bus.array = 8) ∨ (c = .fkprogWrite v ∧ s.bus.array = 9) ∨
  (c = .nvarrLoad v ∧ s.bus.array = 10) ∨ (c = .shadowWrite v ∧ s.bus.array = 11) ∨
  (c = .neverWritableArrayWrite v ∧ (neverWritable s = true ∨ winInRange s = false))

/-! ## Starts -/

/-- R177, R78, R184: a start has been requested for the channels of a mask: held in start-up, with event 005h, else waiting
behind the earlier requests, or joined to the last of them where both take effect in one MOD clock. -/
def StartAsked (m : BitVec 4) (s u : State) : Prop :=
  u = { s with fe := u.fe, ev := u.ev, draws := u.draws } ∧
  (m = 0 → u.fe.heldStarts = s.fe.heldStarts ∧ u.fe.starts = s.fe.starts ∧ u.ev = s.ev) ∧
  (s.pwr.phase = .startup → m ≠ 0 →
    u.fe.heldStarts = s.fe.heldStarts ||| m ∧ u.fe.starts = s.fe.starts ∧ isSticky 5 u = true) ∧
  (s.pwr.phase ≠ .startup → m ≠ 0 →
    u.fe.heldStarts = s.fe.heldStarts ∧ u.ev = s.ev ∧
    (u.fe.starts = s.fe.starts ++ [m] ∨
      ∃ rest last, s.fe.starts = rest ++ [last] ∧ u.fe.starts = rest ++ [last ||| m]))

/-! ## Resets -/

/-- Table 03-3: what every reset leaves, and what it keeps of the state `s` before it. -/
def AfterReset (s u : State) : Prop :=
  u.pwr.phase = .reset ∧ u.pwr.heldReset = none ∧ u.pwr.srst = false ∧
  u.sys = { Sys.reset with lfxrun := s.sys.lfxrun, bkprc := s.sys.bkprc, lfxlost := s.sys.lfxlost } ∧
  u.bus = Bus.reset ∧ u.ev = { Events.reset with held := s.ev.held &&& frisketGroups } ∧ u.fe = Front.reset ∧
  u.fm = Forme.reset ∧ u.cs = Cases.reset ∧ u.tone = Tone.reset ∧ u.cal = Cal.reset ∧ u.kern = Kern.reset ∧
  u.gl = Galley.reset ∧ u.sl = { Seal.reset with digest := s.sl.digest, counter := s.sl.counter } ∧
  u.nv = { Nv.reset with mem := s.nv.mem, flaws := s.nv.flaws, ring := u.nv.ring } ∧
  u.imp.verify = none ∧ u.imp.verr = false ∧ u.imp.first = 0x1FFF ∧
  u.sh = { s.sh with
    sram := u.sh.sram, staging := none, sign := false, busy := false, started := false, closeBit := false
    disc := u.sh.disc, ref := false, base := 0 } ∧
  u.key = { s.key with
    stage := [], dph := false, rph := false, readPos := 0, slot := 0, op := none, check := [] } ∧
  u.fk = { s.fk with
    livetest := false, papply := false, perr := 0, respPage := false, calBoth := false, calAge := 0, lfsr := u.fk.lfsr } ∧
  u.bkp.sec = s.bkp.sec ∧ u.bkp.frac = s.bkp.frac ∧ u.bkp.valid = s.bkp.valid ∧ u.bkp.stageL = none ∧
  u.bkp.stageH = none ∧ u.bkp.snap = none ∧
  u.port.isOpen = false ∧ u.port.pend = false ∧ u.port.ref = false ∧ u.port.logged = false ∧ u.port.ahead = 0

/-- A command that asks for a reset, with its cause (Table 03-3, Table 04-12). -/
def asksReset (c : Instr) (s : State) : Option (BitVec 3) :=
  match c with
  | .rstPinReset ns => if sysLive s ∧ 1000 ≤ ns then some 3 else none
  | .softReset w => if busLive s ∧ fieldOf w 8 8 = 0xC3 then some 4 else none
  | .watchdogReset => if sysLive s ∧ s.sys.wdrst ∧ s.sys.hbFresh = false then some 5 else none
  | _ => none

end Sys2Proof.Machine
end

