-- ==== Sys2Proof/Certificates/Slice0/Obligations.lean ====
section
/-! DEFINITION. Certificates/Slice0/Obligations.lean: the statements. A command answers `settled u`: its own effect `u`, and
what ends every command (`EndOfCommand`). A statement that gives `u` as a record update gives its frame with it: what the
update does not name is unchanged. -/

open Sys2Proof Sys2Proof.Machine

/-! ## The whole block -/

/-- The step takes the command at the front of the queue and runs it on the state with the rest of the queue. The queue is
the model's own form (log entry 1). -/
def Obligations.StepRunsFront : Prop :=
  ∀ (c : Instr) (rest : List Instr) (s : State),
    step { s with pending := c :: rest } = exec c { s with pending := rest }

/-- Every command answers a next state and leaves the queue as it is: no command of the table stops (log entry 3). -/
def Obligations.EveryCommandAnswers : Prop :=
  ∀ (c : Instr) (s : State), ∃ t, exec c s = .next t ∧ t.pending = s.pending

/-- What ends every command. Where no reset is taken it changes only what `Settles` names. A reset that has waited is taken,
with its cause, once no operation and no key command holds it. Where the controller may start an operation it starts the
one that comes first (`StartsNext`). States in which a ring is at its last sequence number are left out. -/
def Obligations.EndOfCommand : Prop :=
  (∀ s : State, RingsUsable s → s.pwr.heldReset = none ∨ resetWaits s = true → Settles s (settled s)) ∧
  (∀ (cause : BitVec 3) (s : State), s.pwr.heldReset = some cause → resetWaits s = false →
    AfterReset s (settled s) ∧ (settled s).pwr.cause = cause) ∧
  (∀ s t : State, RingsUsable s → mayStart s = true → t = admitHeld (injectionCheck s) → StartsNext t (settled s))

/-- An event of a running SYS: its sticky bit sets, its group counter counts modulo 2^48; a wrap sets the overflow flag and
raises event 02Ah, which counts too. An event that an injection raised in the same st is one occurrence with it, which has
counted (the model's mark of the st, log entry 48). Nothing is raised while SYS does not run. -/
def Obligations.EventOccurs : Prop :=
  ∀ (id : Nat) (s : State), id < 1024 →
    (sysLive s = false → raise id s = s) ∧
    (sysLive s = true →
      isSticky id (raise id s) = true ∧
      (∀ j, isSticky j s = true → isSticky j (raise id s) = true) ∧
      (∀ g : Fin 64, g.val ≠ id / 16 → g.val ≠ 2 → (raise id s).ev.count.get g = s.ev.count.get g) ∧
      (alreadyInjected id s = true →
        raise id s = { s with ev := { s.ev with sticky := setBit s.ev.sticky id true } }) ∧
      (alreadyInjected id s = false →
        (∀ g : Fin 64, g.val = id / 16 → s.ev.count.get g ≠ BitVec.allOnes 48 →
          raise id s = { s with ev := { s.ev with
            sticky := setBit s.ev.sticky id true, count := s.ev.count.set g.val (s.ev.count.get g + 1) } }) ∧
        (∀ g : Fin 64, g.val = id / 16 → g.val ≠ 2 → s.ev.count.get g = BitVec.allOnes 48 →
          (raise id s).ev.count.get g = 0 ∧ bitOf (raise id s).ev.ovf g.val = true ∧
          isSticky 0x2A (raise id s) = true ∧
          (raise id s).ev.count.get 2 = (if s.ev.count.get 2 = BitVec.allOnes 48 then 1 else s.ev.count.get 2 + 1))))

/-- Registers with a constant After POR value, as they read right after a reset. TXNCTL is read but for DISC, which a reset that
discards a transaction sets. -/
def Obligations.RegistersAfterReset : Prop :=
  ∀ s u : State, AfterReset s u →
    (busRead 0x00 u).1 = 0x4816 ∧ (busRead 0x01 u).1 = 0x0043 ∧ (busRead 0x04 u).1 = 0x0030 ∧
    (busRead 0x05 u).1 = 0 ∧ (busRead 0x08 u).1 = 0 ∧ (busRead 0x09 u).1 = 0 ∧ (busRead 0x0A u).1 = 0 ∧
    (busRead 0x0D u).1 = 0 ∧ (busRead 0x0E u).1 = 0 ∧ (busRead 0x0F u).1 = 0 ∧ (busRead 0x10 u).1 = 0 ∧
    (busRead 0x11 u).1 = 0 ∧ (busRead 0x12 u).1 = 0 ∧ (busRead 0x14 u).1 = 0x0400 ∧ (busRead 0x15 u).1 = 0x0400 ∧
    (busRead 0x16 u).1 = 0x0400 ∧ (busRead 0x17 u).1 = 0x0400 ∧ (busRead 0x18 u).1 = 0 ∧ (busRead 0x19 u).1 = 0 ∧
    (busRead 0x1A u).1 = 0 ∧ (busRead 0x1B u).1 = 0 ∧ (busRead 0x1D u).1 = 0x2200 ∧ (busRead 0x1F u).1 = 0 ∧
    (busRead 0x20 u).1 = 0 ∧ (busRead 0x21 u).1 = 0 ∧ (busRead 0x22 u).1 = 0x0800 ∧ (busRead 0x23 u).1 = 0 ∧
    (busRead 0x24 u).1 = 0 ∧ (busRead 0x25 u).1 = 0 ∧ (busRead 0x26 u).1 = 0 ∧ (busRead 0x28 u).1 = 0xF814 ∧
    (busRead 0x29 u).1 = 0xFFFF ∧ (busRead 0x2A u).1 = 0x8000 ∧ (busRead 0x2E u).1 = 0 ∧ (busRead 0x32 u).1 = 0 ∧
    (busRead 0x33 u).1 = 0 ∧ (busRead 0x34 u).1 = 0 ∧ (busRead 0x35 u).1 &&& 0xFDFF = 0 ∧
    (busRead 0x36 u).1 = 0x1FFF ∧ (busRead 0x3F u).1 = 0

/-- The state after reset holds its arrays in canonical form. -/
def Obligations.ResetMemoryGood : Prop := MemoryGood State.reset

/-- Every step keeps the canonical form of the EEPROM, the shadow SRAM, the two banks of its twin and the image of a shadow
store that runs. -/
def Obligations.StepKeepsMemoryGood : Prop :=
  ∀ s t : State, MemoryGood s → step s = .next t → MemoryGood t

/-- No step changes a bit of partition I back from 0 to 1. -/
def Obligations.ImprintBitsNeverReturn : Prop :=
  ∀ s t : State, MemoryGood s → step s = .next t → ImprintKept s t

/-- Only the last step of an opening that was granted enters MAKEREADY. -/
def Obligations.MakereadyOnlyByOpening : Prop :=
  ∀ (c : Instr) (s t : State), exec c s = .next t → t.pwr.phase = .makeready → s.pwr.phase ≠ .makeready →
    c = .makereadyEntry ∧ sysLive s = true ∧ ∃ void, s.sl.opening = .opened void

/-- Whatever the command, LIVE runs after it only if every condition of Table 03-6 holds then. -/
def Obligations.LiveOnlyWhileConditionsHold : Prop :=
  ∀ (c : Instr) (s t : State), exec c s = .next t → t.sys.liveOn = true →
    liveMode t = true ∧ liveChannels t = true ∧ legalFault t = false ∧ t.sys.hbFresh = true

/-- What any register read answers does not depend on the key slots SIGN, LINK and VER. -/
def Obligations.ReadsIndependentOfKeys : Prop :=
  ∀ (a : BitVec 6) (s : State) (sign ver : BitVec 256) (link : BitVec 128),
    (busRead a { s with key := { s.key with sign := sign, link := link, ver := ver } }).1 = (busRead a s).1

/-- An access does nothing while the bus is not served, but that in the st of PFAIL a commit asked for is counted as discarded
(R397; the mark of the st is the model's, log entry 48). A command of SYS does nothing while SYS is held in reset; the commits
that a downlink carries into the st of PFAIL are counted too (R305). -/
def Obligations.CommandsIgnoredWhileHeld : Prop :=
  ∀ (c : Instr) (s : State),
    (isAccess c = true → busLive s = false → s.mark ≠ .pfail → exec c s = .next (settled s)) ∧
    (isAccess c = true → busLive s = false → s.mark = .pfail →
      ∃ n, s.pwr.pfDiscarded ≤ n ∧ n ≤ s.pwr.pfDiscarded + 1 ∧
        exec c s = .next (settled { s with pwr := { s.pwr with pfDiscarded := n } })) ∧
    (isSysCommand c = true → sysLive s = false → c ≠ .downlinkExecute ∨ s.mark ≠ .pfail → exec c s = .next (settled s)) ∧
    (sysLive s = false → s.mark = .pfail →
      ∃ n, s.pwr.pfDiscarded ≤ n ∧ (∀ h, s.gl.held = some h → n ≤ s.pwr.pfDiscarded + h.pairs.length) ∧
        exec .downlinkExecute s = .next (settled { s with pwr := { s.pwr with pfDiscarded := n } }))

/-! ## Power, reset and start-up -/

/-- Power-on and the recovery from a power-fail hold the internal reset with their cause; the shadow comes from the better
bank of its twin, or is cleared, with event 371h due at the release; the events of the self tests that failed and event 3A1h
of a lost clock are due then too. -/
def Obligations.PowerUpHoldsReset : Prop :=
  ∀ (env : PowerEnv) (s : State) (c : Instr) (cause : BitVec 3),
    (c = .powerOn env ∧ (s.pwr.phase = .unpowered ∨ s.pwr.phase = .lockup) ∧
        cause = (if s.pwr.bkpLost then 2 else 1)) ∨
      (c = .powerFailRecovery env ∧ s.pwr.phase = .lockup ∧ s.pwr.vdd = true ∧ cause = 6) →
    ∃ u, exec c s = .next (settled u) ∧ AfterReset s u ∧ u.pwr.cause = cause ∧ u.pwr.vdd = true ∧
      u.pwr.vddio = env.vddio ∧ u.pwr.vbat = env.vbat ∧ u.port.test = env.test ∧
      u.pwr.bkpOnVdd = true ∧ u.pwr.vcapSwitch = true ∧
      u.sh.sram = (match bestBank s.sh with | some (_, b) => b.image | none => []) ∧
      u.sh.disc = s.pwr.pfTxn ∧ u.sh.bankA = s.sh.bankA ∧ u.sh.bankB = s.sh.bankB ∧
      (bestBank s.sh = none → 0x371 ∈ u.pwr.releaseEvents) ∧ (s.pwr.bkpLost = true → 0x3A1 ∈ u.pwr.releaseEvents) ∧
      (env.romBad = true → 0x3D0 ∈ u.pwr.releaseEvents) ∧ (env.shaBad = true → 0x3D1 ∈ u.pwr.releaseEvents) ∧
      (env.macBad = true → 0x3D2 ∈ u.pwr.releaseEvents) ∧ u.port.ir = 1

/-- RST# of 1 µs or more, a keyed soft reset and the watchdog reset (`asksReset`) take effect at once, or wait behind an
operation or a key command in progress, with SRST reading 1 for a soft reset; one that waits takes effect, with its cause, when
the operation or the command ends, and the events of that end are raised at the release. Of two that wait the first gives the
cause (log entry 38), and SRST reads 1 until then (log entry 31). A pulse of 100 ns or less does nothing,
a soft reset without its key raises event 021h. That a key command holds a reset is log entry 39's reading of R339. -/
def Obligations.ResetTakesEffectOrWaits : Prop :=
  (∀ (c : Instr) (cause : BitVec 3) (s : State), asksReset c s = some cause →
    (resetWaits s = false →
      ∃ u, exec c s = .next (settled u) ∧ AfterReset s u ∧ u.pwr.cause = cause ∧ u.sh.sram = s.sh.sram ∧
        u.sh.disc = s.sh.staging.isSome ∧ u.nv.ring = s.nv.ring ∧ u.port.ir = s.port.ir) ∧
    (resetWaits s = true →
      ∃ u, exec c s = .next (settled u) ∧ u.pwr.heldReset = some (s.pwr.heldReset.getD cause) ∧
        u.pwr.phase = s.pwr.phase ∧ u.nv.running = s.nv.running ∧ u.nv.host = none ∧ u.nv.mem = s.nv.mem ∧
        u.sh = s.sh ∧ u.fe = s.fe ∧ u.sys = s.sys ∧
        (∀ w, c = .softReset w → bitOf (busRead 0x04 u).1 7 = true))) ∧
  (∀ (op : ArrayOp) (cause : BitVec 3) (s : State), sysLive s = true → s.nv.running = some op →
    storeRuns s = false → s.pwr.heldReset = some cause → s.key.op = none →
    ∃ u, exec .arrayOperationDone s = .next (settled u) ∧ (settled u).pwr.phase = .reset ∧
      (settled u).pwr.cause = cause ∧ (settled u).pwr.heldReset = none ∧ (settled u).nv.running = none ∧
      ∀ id ∈ completionEvents op s, id ∈ (settled u).pwr.releaseEvents) ∧
  (∀ (slot : BitVec 3) (ws : Option (List Word)) (cause : BitVec 3) (s : State), sysLive s = true →
    s.key.op = some (slot, ws) → changeFree s = true → s.nv.running = none → s.pwr.heldReset = some cause →
    ∃ u, exec .keySlotWritten s = .next (settled u) ∧ (settled u).pwr.phase = .reset ∧
      (settled u).pwr.cause = cause ∧ (settled u).key.op = none ∧
      (settled u).key.pres = (if s.key.clear = true ∧ ws.isSome = true then s.key.pres
        else (setSlot slot.toNat ws s.key).pres)) ∧
  (∀ (ns : Nat) (s : State), sysLive s = true → ns ≤ 100 →
    exec (.rstPinReset ns) s = .next (settled { s with draws := s.draws + 1 })) ∧
  (∀ (w : Word) (s : State), busLive s = true → fieldOf w 8 8 ≠ 0xC3 →
    exec (.softReset w) s = .next (settled (raise 0x21 (served s))))

/-- The release of the internal reset samples the straps, raises the events that waited for it and latches the link key (the
model's reading: R286 and Table 10-11 name the origins), or PFAIL follows at once; the migration commits the entries of the
backup buffer from the front, then codes 03h and 01h; with OPEN = 1 and the next position 4,030 a trip entry waits in the buffer
and any other but code 11h, for which the position is kept, is counted, with event 36Fh (what waits and what is counted: log
entry 17); the end of start-up is RUN, with event 000h and the held starts, and counts as a mode change (log entry 58). -/
def Obligations.StartupSequence : Prop :=
  (∀ (env : ReleaseEnv) (s : State), s.pwr.phase = .reset →
     ∃ u, exec (.resetRelease env) s = .next (settled u) ∧
       u.pwr.phase = (if env.vddOk then .startup else .powerFail) ∧ u.pwr.role = env.role ∧
       u.pwr.busmode = env.busmode ∧ u.pwr.pfiOk = env.pfiOk ∧ u.pwr.avddOk = env.avddOk ∧
       u.port.test = env.test ∧
       u.pwr.releaseEvents = [] ∧ (∀ id ∈ s.pwr.releaseEvents, id < 1024 → isSticky id u = true) ∧
       u.sys.lnklk = !env.role ∧
       (env.test = false → u.gl.key = s.key.link ∧ u.gl.zkey = !bitOf s.key.pres 1) ∧
       u.nv.mem = s.nv.mem ∧ u.sh.sram = s.sh.sram) ∧
  (∀ (n : Nat) (s : State), s.pwr.phase = .startup → s.pwr.migrated = false → s.nv.running = none → MemoryGood s →
     ∃ u, exec (.backupMigration n) s = .next (settled u) ∧ u.pwr.phase = .startup ∧ u.sh.sram = s.sh.sram ∧
       (s.imp.next + s.bkp.buffer.length < 3960 → u.bkp.buffer = s.bkp.buffer.drop n ∧
         u.pwr.migrated = decide (s.bkp.buffer.length ≤ n)) ∧
       (s.bkp.buffer = [] → s.bkp.migDone = 0 → s.bkp.lost = 0 → s.bkp.migLost = 0 → s.sys.patchLog = none →
         s.imp.next < 3968 → (∀ i < 16, nvByte s (0x10000 + 16 * s.imp.next + i) = 0xFF) →
         u.imp.next = s.imp.next + 1 ∧
         nvBytes u (0x10000 + 16 * s.imp.next) 16 = entryBytes s.imp.next
           (nowEntry 0x01 (BitVec.ofNat 32
             (s.pwr.cause.toNat * 2 ^ 24 + 2 * flag (!s.bkp.valid) + flag s.pwr.twinBad)) s)) ∧
       (∀ e, s.bkp.buffer = [e] → 1 ≤ n → s.bkp.migDone = 0 → s.bkp.lost = 0 → s.bkp.migLost = 0 →
         s.sys.patchLog = none → s.imp.next < 3966 →
         (∀ i < 48, nvByte s (0x10000 + 16 * s.imp.next + i) = 0xFF) →
         u.imp.next = s.imp.next + 3 ∧ u.bkp.migDone = 0 ∧ isSticky 0x3A2 u = true ∧
         nvBytes u (0x10000 + 16 * s.imp.next) 32 =
           entryBytes s.imp.next e ++ entryBytes (s.imp.next + 1) (nowEntry 0x03 1 s)) ∧
       (∀ e, s.bkp.buffer = [e] → e.code ≠ 0x11 → 1 ≤ n → sessionOpen s = true → s.imp.next = 4030 →
         u.nv.mem = s.nv.mem ∧ u.imp.next = 4030 ∧ u.pwr.migrated = true ∧ isSticky 0x36F u = true ∧
         (isTrip e.code = true → u.bkp.buffer = [e]) ∧
         (isTrip e.code = false → u.bkp.buffer = [] ∧ u.bkp.migLost = s.bkp.migLost + 1))) ∧
  (∀ s : State, s.pwr.phase = .startup → s.pwr.migrated = true → s.pwr.digested = true → s.bkp.buffer = [] →
     ∃ u, exec .startupComplete s = .next (settled u) ∧ u.pwr.phase = .run ∧ isSticky 0 u = true ∧
       u.fe = { clearStartBits s.fe with
         heldStarts := 0, starts := if s.fe.heldStarts = 0 then s.fe.starts else s.fe.starts ++ [s.fe.heldStarts] } ∧
       u.fk.staging = s.fk.active ∧ u.fk.livetest = false ∧ u.sl.incr = .none ∧ u.sl.token = [] ∧
       u.nv = s.nv ∧ u.imp = s.imp ∧ u.bkp = s.bkp ∧ u.sh = { s.sh with closeBit := false })

/-- What the release of the internal reset restores from partition L: the excitation word, class and range of each channel,
the stored formes, cases and calibration sets of the legal-class channels with the delays that follow from them, the
calibration and Galley words, the block protection and the engine patch, each with its event where it is blank or bad: a forme
that fails a check of the loader leaves the forme memories as the reset has cleared them, a calibration set that fails check
1, 2 or 4 of Table 09-2 leaves no set. The guard's program and responses are those of the BKP domain. -/
def Obligations.RestoresAtRelease : Prop :=
  ∀ (env : ReleaseEnv) (s : State), s.pwr.phase = .reset → env.vddOk = true →
    ∃ u, exec (.resetRelease env) s = .next (settled u) ∧
      (∀ v, configWord 0 s = some v → excctlBad v = false → excctlWord u = v &&& 0xFFE0) ∧
      ((∀ v, configWord 0 s = some v → excctlBad v = true) →
        excctlWord u = excctlWord s ∧ isSticky 0x49 u = true) ∧
      (∀ k : Chan,
        (∀ v, configWord (2 * k.val + 2) s = some v →
          isLegal k u = bitOf v 13 ∧ (u.fe.ch.get k).range.toNat = fieldOf v 10 2) ∧
        (configWord (2 * k.val + 2) s = none → u.fe.ch.get k = s.fe.ch.get k ∧ isSticky 0x49 u = true)) ∧
      (∀ k : Chan, isLegal k u = true →
        (∀ slot gen bs, storedForme k s = some (slot, gen, bs) →
          loaderCheck true (imageOf (w32sOfBytes bs)) = none →
          (u.fm.ch.get k).active = imageOf (w32sOfBytes bs) ∧ (u.fm.ch.get k).edit = imageOf (w32sOfBytes bs) ∧
          isSticky (0xC5 + 0x20 * k.val) u = true) ∧
        (storedForme k s = none → (u.fm.ch.get k).active = (s.fm.ch.get k).active ∧
          isSticky (0xC6 + 0x20 * k.val) u = true) ∧
        (∀ slot gen bs, storedForme k s = some (slot, gen, bs) →
          loaderCheck true (imageOf (w32sOfBytes bs)) ≠ none →
          (u.fm.ch.get k).active = (s.fm.ch.get k).active ∧ (u.fm.ch.get k).edit = (s.fm.ch.get k).edit ∧
          isSticky (0xC6 + 0x20 * k.val) u = true) ∧
        (∀ q t, bestSlot (fun t => decide (t.chan = k.val)) s = some (q, t) → t.isComplete = true →
          fcrcFits k t u = true →
          (u.cs.ch.get k).act = t.lower ∧
          activeCase (u.cs.ch.get k) = cellWrites 0 [] 0 (w32sOfBytes (poolImage q s)) ∧
          isSticky (0x142 + 4 * k.val) u = true) ∧
        (∀ q t, bestSlot (fun t => decide (t.chan = k.val)) s = some (q, t) →
          t.isComplete = false ∨ fcrcFits k t u = false →
          (u.cs.ch.get k).rstf = true ∧ (u.fm.ch.get k).valid = false ∧
          isSticky (0x143 + 4 * k.val) u = true) ∧
        (bestSlot (fun t => decide (t.chan = k.val)) s = none →
          (u.cs.ch.get k).rstf = true ∧ (u.fm.ch.get k).valid = false ∧
          isSticky (0x143 + 4 * k.val) u = true)) ∧
      (∀ k : Chan, isLegal k u = false → (u.fm.ch.get k).active = (s.fm.ch.get k).active ∧
        (u.fm.ch.get k).valid = (s.fm.ch.get k).valid ∧ u.cs.ch.get k = s.cs.ch.get k) ∧
      (∀ k : Chan, (u.fm.ch.get k).gd = gdTable (u.fm.ch.get k).active (activeCase (u.cs.ch.get k))) ∧
      (∀ k : Chan,
        (∀ slot gen bs, storedCal k s = some (slot, gen, bs) → calCountBad (vecOf 33 0 (w32sOfBytes bs)) = false →
          calTempsBad (vecOf 33 0 (w32sOfBytes bs)) = false → calFormBad (vecOf 33 0 (w32sOfBytes bs)) = false →
          (u.cal.ch.get k).stored = some (vecOf 33 0 (w32sOfBytes bs)) ∧
          (u.cal.ch.get k).buf = vecOf 33 0 (w32sOfBytes bs) ∧ isSticky (0x162 + 0x10 * k.val) u = true) ∧
        (∀ slot gen bs, storedCal k s = some (slot, gen, bs) →
          calCountBad (vecOf 33 0 (w32sOfBytes bs)) = true ∨ calTempsBad (vecOf 33 0 (w32sOfBytes bs)) = true ∨
            calFormBad (vecOf 33 0 (w32sOfBytes bs)) = true →
          (u.cal.ch.get k).stored = none ∧ (u.cal.ch.get k).buf = Vector.replicate 33 0 ∧
          isSticky (0x163 + 0x10 * k.val) u = true) ∧
        (storedCal k s = none → (u.cal.ch.get k).stored = none ∧
          (u.cal.ch.get k).buf = Vector.replicate 33 0 ∧ isSticky (0x163 + 0x10 * k.val) u = true)) ∧
      (∀ v, configWord 10 s = some v → u.kern.en.toNat = fieldOf v 12 4 ∧ u.kern.dith = bitOf v 11 ∧
        u.kern.qgate = bitOf v 10 ∧ u.kern.frz = bitOf v 9 ∧ u.kern.qlim.toNat = fieldOf v 0 6) ∧
      (∀ v, configWord 12 s = some v → u.cal.txen = bitOf v 11) ∧
      (configWord 10 s = none ∨ configWord 12 s = none → isSticky 0x16D u = true) ∧
      (∀ v, configWord 14 s = some v → (env.role = true → fieldOf v 0 4 ≠ 0) →
        u.gl.en = bitOf v 15 ∧ u.gl.rng = bitOf v 14 ∧ u.gl.trim = bitOf v 13 ∧
        (env.role = true → u.gl.addr.toNat = fieldOf v 0 4)) ∧
      ((∀ v, configWord 14 s = some v → env.role = true ∧ fieldOf v 0 4 = 0) →
        u.gl.en = env.role ∧ u.gl.rng = true ∧ u.gl.trim = true ∧ isSticky 0x2A7 u = true) ∧
      (∀ v, configWord 16 s = some v → u.nv.bpl = bitOf v 15 ∧ u.nv.bp.toNat = fieldOf v 0 2) ∧
      (configWord 16 s = none → u.nv.bpl = false ∧ u.nv.bp = 0 ∧ isSticky 0x36E u = true) ∧
      (u.sys.patch, u.sys.patchLog) = evalPatch s ∧
      u.fk.active = s.fk.active ∧ u.fk.resp0 = s.fk.resp0 ∧ u.fk.resp1 = s.fk.resp1

/-- Steps 7 to 9 of start-up: the legal event counter is the greater of slug ring 0 and the DATA of the last code 23h, and the
ring holds it too; after a loss of the clock a record with FAILS ≥ 5 gets LKSTART = 0; an interrupted session is closed with
code 11h, its record and event 013h, which clears DIGERR and, where SIGN and VER are present, the void flag; else the legal
digest is compared with the last code 11h, with DIGERR and event 015h where they differ. -/
def Obligations.StartupRecovery : Prop :=
  ∀ s : State, powerupDigestDue s = true → digestFree s = true → RingsUsable s → MemoryGood s →
    (∀ c, s.nv.ring.get 1 = some c → c.seq.toNat < 0xFFFFFFFE) →
    ∃ u, exec .powerupDigest s = .next (settled u) ∧ u.pwr.digested = true ∧ u.pwr.rtcLost = false ∧
      u.sl.counter.toNat = max ((ringValue 0 s).setWidth 32).toNat (s.imp.last23.getD 0).toNat ∧
      ringValue 0 u =
        (if ((ringValue 0 s).setWidth 32).toNat < (s.imp.last23.getD 0).toNat then (s.imp.last23.getD 0).setWidth 64
         else ringValue 0 s) ∧
      u.sl.digest = legalDigest s ∧ (sealRecord u).fails = (sealRecord s).fails ∧
      (sealRecord u).lkstart = (if s.pwr.rtcLost = true ∧ 5 ≤ (sealRecord s).fails.toNat then 0
        else (sealRecord s).lkstart) ∧
      (sessionOpen s = false →
        (∀ d, s.imp.last11 = some d →
          (d = (legalDigest s >>> 224).setWidth 32 → u.sl.digerr = s.sl.digerr) ∧
          (d ≠ (legalDigest s >>> 224).setWidth 32 → u.sl.digerr = true ∧ isSticky 0x15 u = true)) ∧
        (s.imp.last11 = none → u.sl.digerr = s.sl.digerr) ∧ u.imp = s.imp ∧ u.key = s.key) ∧
      (sessionOpen s = true →
        sessionOpen u = false ∧ (sealRecord u).voids = false ∧ isSticky 0x13 u = true ∧ u.sl.digerr = false ∧
        u.key = { s.key with void := s.key.void && !(bitOf s.key.pres 0 && bitOf s.key.pres 2) } ∧
        (s.imp.next < 3968 → (∀ i < 16, nvByte s (0x10000 + 16 * s.imp.next + i) = 0xFF) →
          nvBytes u (0x10000 + 16 * s.imp.next) 16 = entryBytes s.imp.next
            (nowEntry 0x11 ((legalDigest s >>> 224).setWidth 32) s)))

/-- PFAIL: bus, excitation and LIVE stop, what waited is discarded, the VCAP switch opens; the store of the shadow follows at
once where nothing runs, into the bank that is not the better one, with the next number, and a transaction is discarded with
it. The mark of the st is the model's (log entry 48), and so is bank A with number 1 where neither bank is valid (log
entry 57). -/
def Obligations.PowerFailBegins : Prop :=
  ∀ s : State,
    (s.pwr.phase = .reset ∨ s.pwr.phase = .startup ∨ s.pwr.phase = .run ∨ s.pwr.phase = .makeready) →
    ∃ u, exec .powerFail s = .next { settled u with mark := if sysLive s then .pfail else .none } ∧ u.pwr.phase = .powerFail ∧
      u.sys.liveOn = false ∧ u.sys.live = false ∧ u.bus.driven = false ∧ u.pwr.vcapSwitch = false ∧
      u.pwr.heldReset = none ∧ u.pwr.pfDiscarded = flag s.nv.host.isSome ∧ u.fe.gen = false ∧ u.ev.act = false ∧
      (∀ k : Chan, (u.fe.ch.get k).drv = false ∧ (u.fe.ch.get k).state = .stopped) ∧ u.nv.host = none ∧
      u.nv.sealQueue = [] ∧ u.nv.bufWords = [] ∧ u.port.isOpen = false ∧ u.nv.mem = s.nv.mem ∧
      u.sh.sram = s.sh.sram ∧ u.gl.tx = none ∧
      (s.nv.running = none → u.sh.staging = none ∧ u.pwr.pfTxn = s.sh.staging.isSome ∧ u.pwr.pfPage = false ∧
        u.nv.running = some (match bestBank s.sh with
          | some (bankB, bank) => .store false (!bankB) s.sh.sram (bank.number + 1)
          | none => .store false false s.sh.sram 1)) ∧
      (s.nv.running ≠ none → u.nv.running = s.nv.running ∧ u.sh.staging = s.sh.staging)

/-- The end of a shadow store: its bank holds the image with its number. In the power-fail sequence LOCKUP follows: the log
queue goes to the backup buffer as R411 places it, with code 02h behind it; without VBAT or VDD the BKP domain is reset.
Elsewhere a command store raises event 370h, at the release where a reset waits. Where VCAP fails, the bank is torn, or the
words of the operation that runs: no other byte changes, the log keeps its zero bits, and a torn slot is not valid. -/
def Obligations.ShadowStoreEnds : Prop :=
  (∀ (s : State) (cmd bankB : Bool) (image : List Host.Cell) (number : W32),
    s.nv.running = some (.store cmd bankB image number) →
    (s.pwr.phase = .powerFail → cmd = false →
      ∃ u, exec .shadowStoreDone s = .next (settled u) ∧ u.nv.running = none ∧
        (if bankB then u.sh.bankB else u.sh.bankA) =
          { image := image, number := number, crc := bankCrc image number, torn := false } ∧
        (if bankB then u.sh.bankA else u.sh.bankB) = (if bankB then s.sh.bankA else s.sh.bankB) ∧
        u.imp.queue = [] ∧ u.imp.heldSteps = [] ∧ u.sl.token = [] ∧ u.sys.xrun = false ∧
        (bkpSupplied s = true → u.pwr.phase = .lockup ∧ u.bkp.mailbox = [] ∧ u.bkp.flags = [] ∧
          ∀ x, x = placeEntries (s.imp.queue ++ s.imp.heldSteps) (s.bkp, 0) →
            u.bkp.buffer = (roomForStore x.1).buffer ++ [nowEntry 0x02 (storeData x.2 s) s]) ∧
        (bkpSupplied s = false → u.pwr.phase = .unpowered ∧ u.pwr.bkpLost = true ∧ u.bkp = Bkp.reset ∧
          u.key = Keys.reset)) ∧
    (sysLive s = true → cmd = true →
      ∃ u, exec .shadowStoreDone s = .next (settled u) ∧ u.nv.running = none ∧ isSticky 0x370 u = true ∧
        (if bankB then u.sh.bankB else u.sh.bankA) =
          { image := image, number := number, crc := bankCrc image number, torn := false } ∧
        (number = 1000000 → isSticky 0x372 u = true) ∧ u.sh.sram = s.sh.sram ∧ u.nv.mem = s.nv.mem ∧
        (s.pwr.heldReset ≠ none → 0x370 ∈ u.pwr.releaseEvents)) ∧
    (s.pwr.phase = .powerFail →
      ∃ u, exec .vcapHoldUpLost s = .next (settled u) ∧ u.nv.mem = s.nv.mem ∧
        (if bankB then u.sh.bankB else u.sh.bankA).torn = true)) ∧
  (∀ s : State, s.pwr.phase = .powerFail → MemoryGood s →
    ∃ u, exec .vcapHoldUpLost s = .next (settled u) ∧ u.nv.running = none ∧ u.imp.queue = [] ∧
      u.sh.sram = s.sh.sram ∧ ImprintKept s u ∧
      (bkpSupplied s = true → u.pwr.phase = .lockup ∧ u.bkp.buffer = s.bkp.buffer) ∧
      (∀ op, s.nv.running = some op → ∀ a, a / 2 ∉ opWords op s → nvByte u a = nvByte s a) ∧
      (s.nv.running = none → u.nv.mem = s.nv.mem) ∧
      (∀ r v j seq, s.nv.running = some (.hostRing r v) ∨ (∃ job, s.nv.running = some (.sealRing r v job)) →
        nextSlot r s = some (j, seq) → readSlot r j u = none))

/-- The supplies. While the BKP domain runs from VDD, the loss of VBAT changes nothing but that it is gone (R87); where neither
supplies the domain it is reset, its LFSRs at free values (R81, R434, log entry 4). The BKP supply switches over only where SYS
no longer runs (R65, log entry 18). VDDIO goes and comes back without a PFAIL; without it LIVE, D and the Galley pins are not
driven (R428). -/
def Obligations.SupplyChanges : Prop :=
  (∀ s : State, s.pwr.bkpOnVdd = true →
    exec .vbatLoss s = .next (settled { s with pwr := { s.pwr with vbat := false } })) ∧
  (∀ s : State, s.pwr.bkpOnVdd = false →
    exec .vbatLoss s = .next (settled { s with
      bkp := Bkp.reset, key := Keys.reset, fk := Frisket.reset (lfsrSeeds s.draws), draws := s.draws + 4
      ev := { s.ev with held := s.ev.held &&& ~~~frisketGroups }
      pwr := { s.pwr with
        vbat := false, bkpLost := true, phase := if s.pwr.phase = .lockup then .unpowered else s.pwr.phase } })) ∧
  (∀ (sw : SupplySwitch) (s : State), s.pwr.phase = .lockup ∨ s.pwr.phase = .powerFail →
    (sw.toVdd = true ∨ sw.vbat = true →
      exec (.bkpSupplySwitch sw) s = .next (settled { s with pwr := { s.pwr with
        bkpOnVdd := sw.toVdd, vdd := sw.toVdd, vbat := sw.vbat } })) ∧
    (sw.toVdd = false → sw.vbat = false →
      ∃ u, exec (.bkpSupplySwitch sw) s = .next (settled u) ∧ u.bkp = Bkp.reset ∧ u.key = Keys.reset ∧
        u.pwr.bkpLost = true ∧ u.pwr.phase = (if s.pwr.phase = .lockup then .unpowered else s.pwr.phase))) ∧
  (∀ s : State,
    exec .vddioLoss s = .next (settled { s with
      pwr := { s.pwr with vddio := false }, sys := { s.sys with live := false }
      bus := { s.bus with driven := false }, gl := { s.gl with tx := none } }) ∧
    exec .vddioReturn s = .next (settled { s with pwr := { s.pwr with vddio := true } }))

/-- An accepted heartbeat is fresh, another value raises event 001h; it goes stale with event 002h; LIVE toggles at a
boundary, or begins with event 004h, its driver powered by VDDIO. SYS takes the oldest mailbox entry, its parity checked (with
the crystal stopped whether it errs is open: log entry 49), and raises its event; the pending flag that was set first follows
(the model's order of flags, log entry 36); the pending-flag signal raises event 00Ah; the self checks of a millisecond. -/
def Obligations.HeartbeatMailboxAndSelfChecks : Prop :=
  (∀ (v : Word) (s : State), busLive s = true →
    exec (.hbeatWrite v) s = .next (settled
      (if s.sys.hbSeen = false ∨ v = ~~~s.sys.hbeat then
        { served s with sys := { s.sys with hbeat := v, hbSeen := true, hbFresh := true } }
       else raise 1 (served s)))) ∧
  (∀ s : State, sysLive s = true → s.sys.hbFresh = true →
    exec .heartbeatStale s = .next (settled (raise 2 { s with sys := { s.sys with hbFresh := false } }))) ∧
  (∀ s : State, sysLive s = true → s.sys.liveHeld = true → liveAll s = true →
    exec .liveTimebaseBoundary s = .next (settled
      (if s.sys.liveOn then { s with sys := { s.sys with live := s.pwr.vddio && !s.sys.live } }
       else raise 4 { s with sys := { s.sys with liveOn := true, live := s.pwr.vddio } }))) ∧
  (∀ (m : Mail) (rest : List Mail) (bad : Bool) (s : State), sysLive s = true → s.bkp.mailbox = m :: rest →
    m.event < 1024 → bad = (if s.sys.xrun then bitOf s.sys.parity 16 else Config.parityError s.draws 16) →
    ∃ u, exec .mailboxEntry s = .next (settled u) ∧
      u = { s with ev := u.ev, draws := if s.sys.xrun then s.draws else s.draws + 1
                   bkp := { s.bkp with mailbox := rest ++ s.bkp.flags.take 1, flags := s.bkp.flags.drop 1 } } ∧
      isSticky m.event u = true ∧ (bad = true → bitOf s.ev.held 0x3E2 = false → isSticky 0x3E2 u = true) ∧
      bitOf u.ev.held 0x3E2 = bad) ∧
  (∀ s : State, sysLive s = true → s.bkp.fullSignal = true →
    exec .mailboxFullSignal s = .next (settled (raise 0xA { s with bkp := { s.bkp with fullSignal := false } }))) ∧
  (∀ (noiseBad clockBad : Bool) (s : State), sysLive s = true →
    ∃ u, exec (.selfCheckTick noiseBad clockBad) s = .next (settled u) ∧ u = { s with ev := u.ev } ∧
      bitOf u.ev.held 0x3D3 = noiseBad ∧ bitOf u.ev.held 0x3E0 = clockBad ∧
      (noiseBad = true → bitOf s.ev.held 0x3D3 = false → isSticky 0x3D3 u = true) ∧
      (clockBad = true → bitOf s.ev.held 0x3E0 = false → isSticky 0x3E0 u = true) ∧
      (noiseBad = false → clockBad = false → s.ev.act = false → u.ev.sticky = s.ev.sticky))

/-! ## The host bus and the window -/

/-- Writes of registers. SCRATCH and EVROUTE take what is written; a write of a read-only register changes nothing; a 1 clears
a W1C bit of CLKST, WINST and FKST. SYSCTL without its key raises event 021h; with it SRST asks for a soft reset, and HBTO and
WDRST change in MAKEREADY only, as RWM fields do: event 024h elsewhere, 014h during closing, behind the increment of the
sealing counter where that is still to be made. NVPROT: BP changes freely while BPL is 0; BPL is an RWM field. KERNCTL: QSEL
and the enables of dynamic-class channels change freely, the rest are RWM fields. A write that keeps the values of the RWM
fields changes none of them (log entry 22). R111: a short read executes in full, with its side effects, and drives D; a short
write is discarded; either raises event 020h. In the strobe-pair style overlapping strobes raise event 022h and access
nothing. -/
def Obligations.RegisterAccesses : Prop :=
  (∀ (v : Word) (s : State), busLive s = true →
    exec (.registerWrite 0x3F v) s = .next (settled { served s with sys := { s.sys with scratch := v } }) ∧
    exec (.registerWrite 0x11 v) s = .next (settled { served s with ev := { s.ev with
      sumsel := bitOf v 15, alen := bitOf v 14, inten := bitOf v 13, area := BitVec.ofNat 11 (fieldOf v 0 11) } }) ∧
    exec (.registerWrite 0x06 v) s = .next (settled { served s with sys := { s.sys with
      xlost := s.sys.xlost && !bitOf v 10, plllost := s.sys.plllost && !bitOf v 9
      lfxlost := s.sys.lfxlost && !bitOf v 8 } }) ∧
    exec (.registerWrite 0x0C v) s = .next (settled { served s with bus := { (served s).bus with
      range := s.bus.range && !bitOf v 15, roref := s.bus.roref && !bitOf v 14, part := s.bus.part && !bitOf v 13 } }) ∧
    ∃ u, exec (.registerWrite 0x30 v) s = .next (settled u) ∧
      u = { served s with fk := { s.fk with
        ltrip := u.fk.ltrip, ctrip := u.fk.ctrip, caltrip := s.fk.caltrip && !bitOf v 9
        etrip := if bitOf v 8 then 0 else s.fk.etrip, dflt := s.fk.dflt && !bitOf v 7
        lktrip := s.fk.lktrip && !bitOf v 6 } } ∧
      (∀ k < 4, bitOf u.fk.ltrip k = (bitOf s.fk.ltrip k && !bitOf v (12 + k))) ∧
      (∀ k < 2, bitOf u.fk.ctrip k = (bitOf s.fk.ctrip k && !bitOf v (10 + k)))) ∧
  (∀ (v : Word) (s : State), busLive s = true →
    (fieldOf v 8 8 ≠ 0xC3 → exec (.registerWrite 0x04 v) s = .next (settled (raise 0x21 (served s)))) ∧
    (fieldOf v 8 8 = 0xC3 → bitOf v 7 = true → exec (.registerWrite 0x04 v) s = exec (.softReset v) s) ∧
    (fieldOf v 8 8 = 0xC3 → bitOf v 7 = false → inMakeready s = false →
      exec (.registerWrite 0x04 v) s = .next (settled (raise 0x24 (served s)))) ∧
    (fieldOf v 8 8 = 0xC3 → bitOf v 7 = false → inMakeready s = true →
      (fieldOf v 4 3 = s.sys.hbto.toNat → bitOf v 3 = s.sys.wdrst →
        exec (.registerWrite 0x04 v) s = .next (settled (served s))) ∧
      (fieldOf v 4 3 ≠ s.sys.hbto.toNat ∨ bitOf v 3 ≠ s.sys.wdrst →
        (isClosing s = true → exec (.registerWrite 0x04 v) s = .next (settled (raise 0x14 (served s)))) ∧
        (isClosing s = false → legalRoom 0 s = true → s.sl.incr = .done →
          exec (.registerWrite 0x04 v) s = .next (settled { served s with sys := { s.sys with
            hbto := BitVec.ofNat 3 (fieldOf v 4 3), wdrst := bitOf v 3 } })) ∧
        (isClosing s = false → legalRoom 0 s = true → s.sl.incr = .none →
          ∃ u, exec (.registerWrite 0x04 v) s = .next (settled u) ∧ u.sys = s.sys ∧
            u.sl.incr = .logging (s.sl.counter + 1) ∧ u.sl.deferred = s.sl.deferred ++ [.reg 0x04 v])))) ∧
  (∀ (v : Word) (s : State), busLive s = true →
    (s.nv.bpl = false → bitOf v 15 = false → exec (.registerWrite 0x34 v) s =
      .next (settled { served s with nv := { s.nv with bp := BitVec.ofNat 2 (fieldOf v 0 2) } })) ∧
    (s.nv.bpl = false → bitOf v 15 = true → inMakeready s = false → exec (.registerWrite 0x34 v) s =
      .next (settled (raise 0x24 { served s with nv := { s.nv with bp := BitVec.ofNat 2 (fieldOf v 0 2) } }))) ∧
    (s.nv.bpl = true → inMakeready s = false →
      exec (.registerWrite 0x34 v) s = .next (settled (raise 0x24 (served s)))) ∧
    (inMakeready s = true → isClosing s = false → legalRoom 0 s = true → s.sl.incr = .done →
      exec (.registerWrite 0x34 v) s = .next (settled { served s with nv := { s.nv with
        bpl := bitOf v 15, bp := BitVec.ofNat 2 (fieldOf v 0 2) } }))) ∧
  (∀ (v : Word) (s : State), busLive s = true → bitOf v 8 = false →
    ∃ u, exec (.registerWrite 0x28 v) s = .next (settled u) ∧ u.kern.qsel = BitVec.ofNat 2 (fieldOf v 6 2) ∧
      (∀ k : Chan, isLegal k s = false → bitOf u.kern.en k.val = bitOf v (12 + k.val)) ∧
      (inMakeready s = false →
        (∀ k : Chan, isLegal k s = true → bitOf u.kern.en k.val = bitOf s.kern.en k.val) ∧
        u.kern.dith = s.kern.dith ∧ u.kern.qgate = s.kern.qgate ∧ u.kern.frz = s.kern.frz ∧
        u.kern.qlim = s.kern.qlim ∧
        ((∃ k : Chan, isLegal k s = true ∧ bitOf v (12 + k.val) ≠ bitOf s.kern.en k.val) ∨
            bitOf v 11 ≠ s.kern.dith ∨ bitOf v 10 ≠ s.kern.qgate ∨ bitOf v 9 ≠ s.kern.frz ∨
            fieldOf v 0 6 ≠ s.kern.qlim.toNat → isSticky 0x24 u = true)) ∧
      (inMakeready s = true → isClosing s = false → legalRoom 0 s = true → s.sl.incr = .done →
        (∀ k : Chan, bitOf u.kern.en k.val = bitOf v (12 + k.val)) ∧ u.kern.dith = bitOf v 11 ∧
        u.kern.qgate = bitOf v 10 ∧ u.kern.frz = bitOf v 9 ∧ u.kern.qlim.toNat = fieldOf v 0 6)) ∧
  (∀ s : State, busRead 0x3F s = (s.sys.scratch, s)) ∧
  (∀ (a : BitVec 6) (v : Word) (s : State), busLive s = true →
    a ∈ ([0x00, 0x01, 0x02, 0x07, 0x19, 0x1C, 0x23, 0x27, 0x29, 0x2A, 0x2C, 0x2D, 0x33, 0x37, 0x3C] :
      List (BitVec 6)) →
    exec (.registerWrite a v) s = .next (settled (served s))) ∧
  (∀ (a : BitVec 6) (s : State), busLive s = true →
    exec (.shortCycle (.read a)) s = .next (settled (raise 0x20
      { (busRead a (served s)).2 with
        bus := { (busRead a (served s)).2.bus with data := (busRead a (served s)).1, driven := true } }))) ∧
  (∀ (a : BitVec 6) (v : Word) (s : State), busLive s = true →
    exec (.shortCycle (.write a v)) s = .next (settled (raise 0x20 (served s)))) ∧
  (∀ s : State, busLive s = true →
    exec .strobeConflict s = .next (settled (if s.pwr.busmode then s else raise 0x22 s)))

/-- R115: a write of WINSEL sets the window address to 0 and ends the snapshot; a write of WINADL or WINADH replaces its
address bits and leaves the others; each discards a staged partial element, with PART and event 026h. R116: every WINDAT
access, whatever comes of it, adds 1 to the 24-bit window address, unless WINSEL.HOLD is 1. -/
def Obligations.WindowSelection : Prop :=
  (∀ (c : Instr) (v : Word) (s : State), busLive s = true →
    c = .windowSelect v ∨ c = .windowAddressWrite false v ∨ c = .windowAddressWrite true v →
    ∃ u, exec c s = .next (settled u) ∧ u = { s with bus := u.bus, ev := u.ev } ∧ u.bus.stage = none ∧
      (s.bus.stage = none → u.ev = s.ev ∧ u.bus.part = s.bus.part) ∧
      (s.bus.stage ≠ none → u.bus.part = true ∧ isSticky 0x26 u = true) ∧
      (c = .windowSelect v → u.bus.addr = 0 ∧ u.bus.snap = none ∧ u.bus.hold = bitOf v 8 ∧
        u.bus.sub.toNat = fieldOf v 4 4 ∧ u.bus.array.toNat = fieldOf v 0 4) ∧
      (c = .windowAddressWrite false v → u.bus.addr.setWidth 16 = v ∧ u.bus.addr >>> 16 = s.bus.addr >>> 16 ∧
        u.bus.snap = s.bus.snap ∧ u.bus.array = s.bus.array ∧ u.bus.sub = s.bus.sub ∧ u.bus.hold = s.bus.hold) ∧
      (c = .windowAddressWrite true v → (u.bus.addr >>> 16).setWidth 8 = v.setWidth 8 ∧
        u.bus.addr.setWidth 16 = s.bus.addr.setWidth 16 ∧ u.bus.snap = s.bus.snap ∧
        u.bus.array = s.bus.array ∧ u.bus.sub = s.bus.sub ∧ u.bus.hold = s.bus.hold)) ∧
  (∀ s : State, (busRead 0x0B s).2.bus.addr = nextAddr s) ∧
  (∀ (v : Word) (s : State), (busWrite 0x0B v s).bus.addr = nextAddr s) ∧
  (∀ (c : Instr) (v : Word) (s : State), busLive s = true →
    c = .windatRead ∨ c = .registerWrite 0x0B v ∨ isRowOf c v s →
    ∃ u, exec c s = .next (settled u) ∧ u.bus.addr = nextAddr s)

/-- A read of WINDAT: a word of a one-word element as stored; the first word of a longer element, which snapshots it; a later
word from that snapshot, or as stored where none is held; out of range 0000h with RANGE and event 023h. A staged partial
element is discarded with PART and event 026h, which the word and the snapshot do not show yet (R119, R154). WINST.BADCHK
and events 361h, 368h and 369h for a word of NVARR or of the log that is being programmed or does not check, or whose check an
injection forces. -/
def Obligations.WindowReads : Prop :=
  ∀ (a : Nat) (s : State), busLive s = true → a = s.bus.addr.toNat →
    ∃ u, exec .windatRead s = .next (settled u) ∧ u = { s with bus := u.bus, ev := u.ev, draws := u.draws } ∧
      (s.sys.xrun = true ∨ winInRange s = false → u.draws = s.draws) ∧ u.bus.stage = none ∧
      u.bus.driven = true ∧ u.bus.addr = nextAddr s ∧
      (s.bus.stage = none → u.bus.part = s.bus.part) ∧
      (s.bus.stage ≠ none → u.bus.part = true ∧ isSticky 0x26 u = true) ∧
      (winInRange s = true → (elementAt s.bus.array a).2 = 1 ∨ snapHere s = none → u.bus.data = windowWord s a) ∧
      (winInRange s = true → (elementAt s.bus.array a).2 ≠ 1 → (elementAt s.bus.array a).1 = a →
        u.bus.data = windowWord s a ∧
        u.bus.snap = some { array := s.bus.array, sub := s.bus.sub, base := a, words := windowElement s a }) ∧
      (∀ ws, winInRange s = true → (elementAt s.bus.array a).2 ≠ 1 → (elementAt s.bus.array a).1 ≠ a →
        snapHere s = some ws → u.bus.data = ws.getD (a - (elementAt s.bus.array a).1) 0 ∧
        u.bus.badchk = s.bus.badchk) ∧
      (winInRange s = false → u.bus.data = 0 ∧ u.bus.range = true ∧ isSticky 0x23 u = true) ∧
      (winInRange s = true → s.bus.array = 10 →
        (busyPage s = some (a / 32) → u.bus.data = 0xFFFF ∧ u.bus.badchk = true ∧ isSticky 0x361 u = true) ∧
        (busyPage s ≠ some (a / 32) →
          u.bus.data = (nvRead s a).1 ∧
          u.bus.badchk = (decide ((nvRead s a).2 ≠ 0 ∧ (nvRead s a).2 ≠ 1) || injected 0x369 s) ∧
          ((nvRead s a).2 = 1 ∨ injected 0x368 s = true → isSticky 0x368 u = true) ∧
          (((nvRead s a).2 ≠ 0 ∧ (nvRead s a).2 ≠ 1) ∨ injected 0x369 s = true → isSticky 0x369 u = true))) ∧
      (winInRange s = true → s.bus.array = 12 → a % 8 = 0 ∨ snapHere s = none →
        (busyPage s = some (1024 + a / 32) → u.bus.badchk = true ∧ isSticky 0x361 u = true) ∧
        (busyPage s ≠ some (1024 + a / 32) → a % 8 = 0 → u.bus.badchk = entryCrcBad s (a / 8)))

/-- R140: a 1 written to a bit of an EVSTAT word clears that sticky bit, a 0 leaves it; an EVEN word sets the enables of its
group, those of events that exist. R146: of the three words of a counter preset two are staged, and the third gives the
counter its 48 bits. -/
def Obligations.EventWordWrites : Prop :=
  (∀ (v : Word) (s s1 : State), busLive s = true → s1 = leaveStage (served s) → s.bus.addr.toNat < 64 →
    (s.bus.array = 0 →
      ∃ u, exec (.evstatClear v) s = .next (settled u) ∧
        u = { s1 with bus := { s1.bus with addr := nextAddr s }
                      ev := { s1.ev with sticky := u.ev.sticky, legal := u.ev.legal } } ∧
        ∀ id < 1024, isSticky id u =
          (isSticky id s1 && !(decide (id / 16 = s.bus.addr.toNat) && bitOf v (id % 16)))) ∧
    (s.bus.array = 1 →
      ∃ u, exec (.evenWrite v) s = .next (settled u) ∧
        u = { s1 with bus := { s1.bus with addr := nextAddr s }, ev := { s1.ev with enable := u.ev.enable } } ∧
        ∀ id < 1024, bitOf u.ev.enable id =
          (if id / 16 = s.bus.addr.toNat then bitOf v (id % 16) && eventExists (isNode s) id
           else bitOf s.ev.enable id))) ∧
  (∀ (v v0 v1 : Word) (g : Fin 64) (s s1 : State), busLive s = true → s1 = leaveStage (served s) →
    s.bus.array = 2 →
    (s.bus.addr.toNat = 3 * g.val → s1.bus.stage = none →
      exec (.counterPreset v) s = .next (settled { s1 with bus := { s1.bus with
        stage := some { base := 3 * g.val, words := [(0, v)] }, addr := nextAddr s } })) ∧
    (s.bus.addr.toNat = 3 * g.val + 1 → s1.bus.stage = some { base := 3 * g.val, words := [(0, v0)] } →
      exec (.counterPreset v) s = .next (settled { s1 with bus := { s1.bus with
        stage := some { base := 3 * g.val, words := [(0, v0), (1, v)] }, addr := nextAddr s } })) ∧
    (s.bus.addr.toNat = 3 * g.val + 2 →
      s1.bus.stage = some { base := 3 * g.val, words := [(0, v0), (1, v1)] } →
      exec (.counterPreset v) s = .next (settled { s1 with
        bus := { s1.bus with stage := none, addr := nextAddr s }
        ev := { s1.ev with count := s1.ev.count.set g.val (v ++ (v1 ++ v0)) } })))

/-- The arrays of two-word elements (`formeEditWrite`, `caseWrite`, `calsetWrite`, `fkprogWrite`), where they take the write:
the first word is staged, the second gives the element both, in the edit buffer, a case, the calibration buffer or the staging
program. -/
def Obligations.TwoWordElements : Prop :=
  ∀ (c : Instr) (v v0 : Word) (i : Nat) (s s1 : State), busLive s = true → s1 = leaveStage (served s) →
    isRowOf c v s → s.bus.array ∈ ([3, 4, 5, 6, 9] : List (BitVec 4)) → winInRange s = true →
    windowRefusal s s.bus.addr.toNat = none →
    (s.bus.addr.toNat = 2 * i → s1.bus.stage = none →
      exec c s = .next (settled { s1 with bus := { s1.bus with
        stage := some { base := 2 * i, words := [(0, v)] }, addr := nextAddr s } })) ∧
    (s.bus.addr.toNat = 2 * i + 1 → s1.bus.stage = some { base := 2 * i, words := [(0, v0)] } →
      ∃ u, exec c s = .next (settled u) ∧
        u = { s1 with bus := { s1.bus with stage := none, addr := nextAddr s }
                      fm := u.fm, cs := u.cs, cal := u.cal, fk := u.fk } ∧
        u.fm = (if s.bus.array = 3 then
          (modFm (winChan s) (fun x => { x with edit := x.edit.setIfInBounds i (joinWords v0 v) }) s).fm else s.fm) ∧
        u.cs = (if s.bus.array = 4 then
            (modCs (winChan s) (fun x => { x with upper := cellWrite 0 x.upper i (joinWords v0 v) }) s).cs
          else if s.bus.array = 5 then
            (modCs (winChan s) (fun x => { x with lower := cellWrite 0 x.lower i (joinWords v0 v) }) s).cs
          else s.cs) ∧
        u.cal = (if s.bus.array = 6 then
          (modCal (winChan s) (fun x => { x with buf := x.buf.setIfInBounds i (joinWords v0 v) }) s).cal
          else s.cal) ∧
        u.fk = (if s.bus.array = 9 then
          { s.fk with staging := s.fk.staging.setIfInBounds i (joinWords v0 v) } else s.fk))

/-- The downlink queue takes a word; NVARR loads the page buffer, never the array, and a second load of a word raises event
367h; SHADOW takes the word in the SRAM, or in the staging copy inside the region of an open transaction. -/
def Obligations.QueueBufferAndShadowWrites : Prop :=
  ∀ (v : Word) (s s1 : State), busLive s = true → s1 = leaveStage (served s) → winInRange s = true →
    (s.bus.array = 8 → windowRefusal s s.bus.addr.toNat = none →
      exec (.glnodeQueueWrite v) s = .next (settled { s1 with
        bus := { s1.bus with addr := nextAddr s }
        gl := { s1.gl with queue := s1.gl.queue.setIfInBounds s.bus.addr.toNat v } })) ∧
    (s.bus.array = 10 →
      ∃ u, exec (.nvarrLoad v) s = .next (settled u) ∧
        u = { s1 with bus := { s1.bus with addr := nextAddr s }, ev := u.ev
                      nv := { s1.nv with bufPage := u.nv.bufPage, bufWords := u.nv.bufWords } } ∧
        u.nv.bufPage = some (s.nv.bufPage.getD (BitVec.ofNat 11 (s.bus.addr.toNat / 32))) ∧
        (s.bus.addr.toNat % 32, v) ∈ u.nv.bufWords ∧
        (∀ j w, j ≠ s.bus.addr.toNat % 32 → ((j, w) ∈ u.nv.bufWords ↔ (j, w) ∈ s.nv.bufWords)) ∧
        ((∃ w, (s.bus.addr.toNat % 32, w) ∈ s.nv.bufWords) → isSticky 0x367 u = true) ∧
        ((∀ w, (s.bus.addr.toNat % 32, w) ∉ s.nv.bufWords) → u.ev = s1.ev)) ∧
    (s.bus.array = 11 → MemoryGood s → inRegion s s.bus.addr.toNat = false →
      ∃ u, exec (.shadowWrite v) s = .next (settled u) ∧
        u = { s1 with bus := { s1.bus with addr := nextAddr s }, sh := { s1.sh with sram := u.sh.sram } } ∧
        ∀ b, shadowByte u b =
          (if b = 2 * s.bus.addr.toNat then v.setWidth 8
           else if b = 2 * s.bus.addr.toNat + 1 then (v >>> 8).setWidth 8 else shadowByte s b)) ∧
    (∀ bs, s.bus.array = 11 → inRegion s s.bus.addr.toNat = true → s.sh.staging = some bs → bs.length = 512 →
      s.sh.busy = false →
      ∃ u, exec (.shadowWrite v) s = .next (settled u) ∧
        u = { s1 with bus := { s1.bus with addr := nextAddr s }, sh := { s1.sh with staging := u.sh.staging } } ∧
        shadowWord u s.bus.addr.toNat = v ∧
        ∀ w, w ≠ s.bus.addr.toNat → shadowWord u w = shadowWord s w)

/-- A write that the array refuses has no effect but ROREF and its event: 025h where it is never writable
(`neverWritableArrayWrite`), 024h under an RWM rule; a write out of range sets RANGE with event 023h. A row whose array WINSEL
does not select does nothing. -/
def Obligations.WindowRefusals : Prop :=
  (∀ (c : Instr) (v : Word) (s s1 : State), busLive s = true → s1 = leaveStage (served s) → isRowOf c v s →
    (winInRange s = false →
      exec c s = .next (settled (raise 0x23 { s1 with
        bus := { s1.bus with range := true, addr := nextAddr s } }))) ∧
    (∀ ev, winInRange s = true → windowRefusal s s.bus.addr.toNat = some ev →
      ∃ u, exec c s = .next (settled u) ∧
        u = { s1 with bus := { s1.bus with roref := true, addr := nextAddr s }, ev := u.ev } ∧
        isSticky ev u = true ∧ (s.bus.array = 11 → isSticky 0x378 u = true)) ∧
    (winInRange s = true → neverWritable s = true → windowRefusal s s.bus.addr.toNat = some 0x25)) ∧
  (∀ s : State, inMakeready s = false →
    (s.bus.array = 6 ∨ s.bus.array = 9 → windowRefusal s s.bus.addr.toNat = some 0x24) ∧
    (s.bus.array = 3 → isLegal (winChan s) s = true → windowRefusal s s.bus.addr.toNat = some 0x24)) ∧
  (∀ (v : Word) (s : State),
    (s.bus.array ≠ 3 → exec (.formeEditWrite v) s = .next (settled s)) ∧
    (s.bus.array ≠ 10 → exec (.nvarrLoad v) s = .next (settled s)))

/-! ## Events and injection -/

/-- R141: EVSUM_n shows the enabled sticky groups, or the overflow flags with SUMSEL = 1; a 1 written to it clears the
enabled sticky bits of its group, or the flag. -/
def Obligations.EventSummaries : Prop :=
  ∀ (n : Fin 4) (v : Word) (s : State),
    (∀ j < 16, (bitOf (summary n.val s.ev) j = true ↔
      (if s.ev.sumsel then bitOf s.ev.ovf (16 * n.val + j) = true
       else ∃ p < 16, isSticky (256 * n.val + 16 * j + p) s = true ∧
         bitOf s.ev.enable (256 * n.val + 16 * j + p) = true))) ∧
    (busRead (BitVec.ofNat 6 (0x0D + n.val)) s).1 = summary n.val s.ev ∧
    (busLive s = true →
      ∃ u, exec (.evsumClear n v) s = .next (settled u) ∧
        u = { served s with
          ev := { s.ev with sticky := u.ev.sticky, legal := u.ev.legal, ovf := u.ev.ovf } } ∧
        (∀ id < 1024, isSticky id u = (isSticky id s && !(!s.ev.sumsel && decide (id / 256 = n.val) &&
          bitOf v (id / 16 % 16) && bitOf s.ev.enable id))) ∧
        (∀ g < 64, bitOf u.ev.ovf g =
          (bitOf s.ev.ovf g && !(s.ev.sumsel && decide (g / 16 = n.val) && bitOf v (g % 16)))))

/-- Injection: the key arms, another value disarms with event 028h; an INJ write disarms, and is accepted only under every
condition of Table 05-3, else REF with event 027h. What an accepted one raises at once and what it arms is log entry 21's
choice: an event without a detector of its own, and a lost MOD clock, in its own st, with the status that the condition sets
(an injected loss of the crystal halts the channels);
any other at the next evaluation of its detector, which it forces unless the path failed (log entry 49). The end clears ACT,
with MISS and event 029h where the evaluation made no occurrence, or as R475 has it, with ABRT and event 02Bh, where there was
none, and logs code 35h for groups 2Eh to 35h. -/
def Obligations.Injection : Prop :=
  (∀ (v : Word) (s : State), busLive s = true →
    exec (.injkeyWrite v) s = .next (settled
      (if v = 0x5A3C then { served s with ev := { s.ev with armed := true } }
       else raise 0x28 { served s with ev := { s.ev with armed := false } }))) ∧
  (∀ (v : Word) (s : State), busLive s = true → injectAllowed (fieldOf v 0 10) s = false →
    exec (.injectStart v) s = .next (settled (raise 0x27 { served s with ev := { s.ev with
      miss := s.ev.miss && !bitOf v 13, ref := true, abrt := s.ev.abrt && !bitOf v 11, armed := false } }))) ∧
  (∀ (v : Word) (id : Nat) (s : State), busLive s = true → id = fieldOf v 0 10 → injectAllowed id s = true →
    ∃ u, exec (.injectStart v) s =
        .next { settled u with mark := if isDetector id then .none else .injected } ∧
      u.ev.act = true ∧ u.ev.evid.toNat = id ∧ u.ev.armed = false ∧ u.ev.injLive = s.fk.livetest ∧
      u.ev.injMode.toNat = modeState s ∧
      (isDetector id = false → isSticky id u = true ∧ u.ev.evaluated = true ∧ u.ev.answered = true ∧
        u.sys = injectionSets id s.sys) ∧
      (isDetector id = false → id ≠ 6 → u = { served s with ev := u.ev, sys := u.sys }) ∧
      (id = 6 → ∀ k : Chan,
        (atRest k s = true → u.fe.ch.get k = s.fe.ch.get k) ∧
        (atRest k s = false → (u.fe.ch.get k).state = .halted ∧ (u.fe.ch.get k).drv = false ∧
          isSticky (0x48 + 0x20 * k.val) u = true)) ∧
      (isDetector id = true → isClockDetector id = false →
        u = { served s with ev := u.ev } ∧ u.ev.sticky = s.ev.sticky ∧ u.ev.evaluated = false) ∧
      (∀ k : Chan, id = 0x48 + 0x20 * k.val → u.ev.evaluated = true ∧
        (Config.pathFailed id = false → (u.fe.ch.get k).state = .halted ∧ isSticky id u = true ∧
          u.ev.answered = true) ∧
        (Config.pathFailed id = true → u.fe = s.fe ∧ u.ev.answered = false))) ∧
  (∀ (id : Nat) (cond : Bool) (s : State), sysLive s = true → injected id s = true →
    isSticky id (detect id cond s) = true ∧ (detect id cond s).ev.evaluated = true ∧
    (detect id cond s).ev.answered = true) ∧
  (∀ s : State, sysLive s = true → s.ev.act = true →
    (isFrisketEvent s.ev.evid.toNat = false →
      exec .injectionEnd s = .next (settled
        (if s.ev.evaluated = false then raise 0x2B { s with ev := { s.ev with act := false, abrt := true } }
         else if s.ev.answered then { s with ev := { s.ev with act := false } }
         else raise 0x29 { s with ev := { s.ev with act := false, miss := true } }))) ∧
    (isFrisketEvent s.ev.evid.toNat = true → nextPosition s < 4030 → s.imp.queue.length < 28 →
      ∃ u, exec .injectionEnd s = .next (settled u) ∧ u.ev.act = false ∧
        (s.ev.evaluated = false → u.ev.abrt = true ∧ isSticky 0x2B u = true) ∧
        (s.ev.evaluated = true → u.ev.abrt = s.ev.abrt ∧ u.ev.miss = (s.ev.miss || !s.ev.answered) ∧
          (s.ev.answered = false → isSticky 0x29 u = true)) ∧
        u = { s with ev := u.ev, imp := { s.imp with
          queue := s.imp.queue ++ [nowEntry 0x35
            (injectionData (s.ev.evaluated && s.ev.answered) (!s.ev.evaluated) s.ev) s] } }))

/-! ## The seal -/

/-- SEALKEY in RUN while no attempt runs stores a token word; the sixteenth is refused with event 017h where the log is full,
else requests the pre-increment of the attempt; elsewhere event 016h. SEALST: TKRST clears the token buffer; CLOSE in MAKEREADY
begins the closing, or is refused with CLREF and event 012h where the verifier or the signing key is missing. -/
def Obligations.SealRegisterWrites : Prop :=
  (∀ (v : Word) (s : State), busLive s = true →
     ((s.pwr.phase ≠ .run ∨ s.sl.opening ≠ .idle) →
       exec (.sealkeyWrite v) s = .next (settled (raise 0x16 (served s)))) ∧
     (s.pwr.phase = .run → s.sl.opening = .idle →
       (s.sl.token.length < 15 →
         exec (.sealkeyWrite v) s =
           .next (settled { served s with sl := { s.sl with token := s.sl.token ++ [v] } })) ∧
       (15 ≤ s.sl.token.length → 4031 < s.imp.next →
         exec (.sealkeyWrite v) s =
           .next (settled (raise 0x17 { served s with sl := { s.sl with token := [] } }))) ∧
       (15 ≤ s.sl.token.length → s.imp.next ≤ 4031 →
         ∃ (u : State) (r : SealRecord) (began : Bool), exec (.sealkeyWrite v) s = .next (settled u) ∧
           began = (decide (5 ≤ r.fails.toNat) && !lockoutActive (latestRecord s) s.bkp.sec) ∧
           r = { latestRecord s with
             fails := if (latestRecord s).fails = 0xFFFF then 0xFFFF else (latestRecord s).fails + 1
             lkstart := if began then s.bkp.sec else (latestRecord s).lkstart } ∧
           u = { served s with
             sl := { s.sl with token := s.sl.token ++ [v], opening := .counting (latestRecord s) began false }
             nv := { s.nv with sealQueue := s.nv.sealQueue ++ [(1, r.value, .count)] } }))) ∧
  (∀ (w : Word) (s s1 : State), busLive s = true →
     s1 = { served s with sl := { s.sl with
       denied := s.sl.denied && !bitOf w 14, granted := s.sl.granted && !bitOf w 13
       clref := s.sl.clref && !bitOf w 11, token := if bitOf w 6 then [] else s.sl.token } } →
     (bitOf w 5 = false →
       exec (.tokenReset w) s = .next (settled { s1 with sl := { s1.sl with token := [] } })) ∧
     (bitOf w 5 = true → exec (.tokenReset w) s = exec (.closeRequest (w ||| 0x0040)) s) ∧
     (exec (.closeRequest w) s = .next (settled
       (if inMakeready s = false ∨ isClosing s = true then s1
        else if bitOf s.key.pres 0 = true ∧ bitOf s.key.pres 2 = true then
          { s1 with sl := { s1.sl with closing := .waiting } }
        else raise 0x12 { s1 with sl := { s1.sl with clref := true } }))))

/-- Opening: the check at T0, the denial with event 010h and code 12h, the grant with its ring commit, the entry to MAKEREADY
with event 011h and code 10h or 14h. Closing: the digest, and code 11h for the log, whose commit requests the record
(`ArrayOperationEnds`); at its end RUN, event 013h, and the void flag cleared where slots SIGN and VER are present. The entries
join the log queue; where it has no place for them the step is held (log entry 17). The digest reads the formes and cases of the
legal-class channels, with their parity (log entry 49). -/
def Obligations.SealSequences : Prop :=
  (∀ (s : State) (pre : SealRecord) (began spoilt : Bool), sysLive s = true →
    s.sl.opening = .counted pre began spoilt →
    exec .openingCheck s = .next (settled { s with sl := { s.sl with
      opening := .checking (calswAsserted s && !lockoutActive pre s.bkp.sec && !spoilt &&
        (s.key.void || decide (sha256 (bytesOfWordsHigh s.sl.token) = s.key.ver))) s.key.void began } })) ∧
  (∀ (s : State) (void began : Bool), sysLive s = true → s.sl.opening = .checking false void began →
    nextPosition s < 4029 → placesFree (denyEntries began) s = true →
    ∃ u, exec .openingResult s = .next (settled u) ∧
      u = { s with
        ev := u.ev, sl := u.sl, imp := { s.imp with queue := u.imp.queue, heldSteps := u.imp.heldSteps } } ∧
      u.sl = { s.sl with denied := true, opening := .idle, token := [] } ∧ isSticky 0x10 u = true ∧
      u.imp.queue ++ u.imp.heldSteps = s.imp.queue ++ s.imp.heldSteps ++
        [nowEntry 0x12 ((latestRecord s).fails.setWidth 32) s] ++
        (if began then [nowEntry 0x13 ((latestRecord s).lkstart + 3600) s] else [])) ∧
  (∀ (s : State) (void began : Bool), s.sl.opening = .checking false void began →
    placesFree (denyEntries began) s = false → exec .openingResult s = .next (settled s)) ∧
  (∀ (s : State) (void began : Bool), sysLive s = true → s.sl.opening = .checking true void began →
    exec .openingResult s = .next (settled { s with
      sl := { s.sl with granted := true, opening := .opening void, token := [] }
      nv := { s.nv with sealQueue := s.nv.sealQueue ++
        [(1, ({ latestRecord s with fails := 0, isOpen := true, voids := void } : SealRecord).value,
          .openSession)] } })) ∧
  (∀ (s : State) (void : Bool), sysLive s = true → s.sl.opening = .opened void →
    nextPosition s < 4030 → placesFree 1 s = true →
    ∃ u, exec .makereadyEntry s = .next (settled u) ∧ u.pwr = { s.pwr with phase := .makeready, srst := false } ∧
      u.sl = { s.sl with opening := .idle, token := [] } ∧ isSticky 0x11 u = true ∧ u.ev.armed = false ∧
      u.key.stage = [] ∧ u.nv = s.nv ∧ u.fe = clearStartBits s.fe ∧
      u.imp = { s.imp with queue := u.imp.queue, heldSteps := u.imp.heldSteps } ∧
      u.imp.queue ++ u.imp.heldSteps = s.imp.queue ++ s.imp.heldSteps ++
        [nowEntry (if void then 0x14 else 0x10) s.sl.counter s]) ∧
  (∀ s : State, placesFree 1 s = false →
    (∀ void, s.sl.opening = .opened void → exec .makereadyEntry s = .next (settled s)) ∧
    exec .closingDigest s = .next (settled s)) ∧
  (∀ s : State, sysLive s = true → closingDue s = true → digestFree s = true → nextPosition s ≤ 4030 →
    placesFree 1 s = true →
    ∃ u, exec .closingDigest s = .next (settled u) ∧ u.ev = (readLegal s).ev ∧ u.draws = (readLegal s).draws ∧
      u = { s with
        ev := u.ev, draws := u.draws
        sl := { s.sl with digest := legalDigest s, closing := .logging }
        imp := { s.imp with queue := u.imp.queue, heldSteps := u.imp.heldSteps } } ∧
      u.imp.queue ++ u.imp.heldSteps = s.imp.queue ++ s.imp.heldSteps ++
        [nowEntry 0x11 ((legalDigest s >>> 224).setWidth 32) s]) ∧
  (∀ s : State, sysLive s = true → s.sl.closing = .recorded →
    ∃ u, exec .closingComplete s = .next (settled u) ∧ u.pwr = { s.pwr with phase := .run, srst := false } ∧
      u.sl.closing = .idle ∧ u.sl.incr = .none ∧ u.sl.digerr = false ∧ isSticky 0x13 u = true ∧
      u.key.void = (s.key.void && !(bitOf s.key.pres 0 && bitOf s.key.pres 2)) ∧
      u.fk.staging = s.fk.active ∧ u.fk.livetest = false ∧ u.nv = s.nv ∧ u.imp = s.imp ∧
      u.fe = clearStartBits s.fe)

/-! ## Front end and engine -/

/-- EXCCTL is refused outside MAKEREADY with event 024h, and leaves EXCST.REF as it is (the model's reading of Table 06-13,
log entry 58), with a channel not at rest or a reserved value by REF and event A, 9, during closing with event 014h, and else
takes the word at once or behind the increment of the sealing counter. CHCTL's SHORT and RANGE of a dynamic-class channel
change at rest, and raise B, 6 while it starts or runs; CLASS, and SHORT and RANGE of a legal-class channel, change in
MAKEREADY, at once or behind the increment, and a change of CLASS clears VALID with event 0C7h + 20h × k; a write that repeats
the present values is no change (the model's choice, log entries 22 and 23). -/
def Obligations.ExcitationAndChannelFields : Prop :=
  (∀ (w : Word) (s : State), busLive s = true →
    (inMakeready s = false → exec (.excctlWrite w) s = .next (settled (raise 0x24 (served s)))) ∧
    (inMakeready s = true → ((∃ k : Chan, atRest k s = false) ∨ excctlBad w = true) →
      exec (.excctlWrite w) s =
        .next (settled (raise 0x49 { served s with fe := { s.fe with ref := true } }))) ∧
    (inMakeready s = true → (∀ k : Chan, atRest k s = true) → excctlBad w = false → isClosing s = false →
      s.sl.incr = .done →
      exec (.excctlWrite w) s = .next (settled { served s with fe := { s.fe with
        mode := BitVec.ofNat 2 (fieldOf w 14 2), fdiv := BitVec.ofNat 3 (fieldOf w 11 3)
        blank := BitVec.ofNat 3 (fieldOf w 8 3), amp := BitVec.ofNat 2 (fieldOf w 6 2), dcpol := bitOf w 5 } })) ∧
    (inMakeready s = true → (∀ k : Chan, atRest k s = true) → excctlBad w = false → isClosing s = false →
      s.sl.incr = .none → legalRoom 0 s = true → w &&& 0xFFE0 ≠ excctlWord s →
      ∃ u, exec (.excctlWrite w) s = .next (settled u) ∧ u.fe = s.fe ∧ u.sl.incr = .logging (s.sl.counter + 1) ∧
        u.sl.deferred = s.sl.deferred ++ [.reg 0x1D w]) ∧
    (inMakeready s = true → (∀ k : Chan, atRest k s = true) → excctlBad w = false → isClosing s = true →
      exec (.excctlWrite w) s =
        .next (settled (if w &&& 0xFFE0 = excctlWord s then served s else raise 0x14 (served s))))) ∧
  (∀ (k : Chan) (w : Word) (s : State), busLive s = true → isLegal k s = false → bitOf w 13 = false →
    (atRest k s = true →
      exec (.chctlConfigWrite k w) s = .next (settled (modFe k
        (fun c => { c with short := bitOf w 12, range := BitVec.ofNat 2 (fieldOf w 10 2) }) (served s)))) ∧
    (atRest k s = false → chctlChange k w s ≠ 0 →
      exec (.chctlConfigWrite k w) s = .next (settled (raise (0x56 + 0x20 * k.val) (served s))))) ∧
  (∀ (k : Chan) (w : Word) (s : State), busLive s = true → inMakeready s = false → isLegal k s = true →
    chctlChange k w s ≠ 0 →
    exec (.chctlConfigWrite k w) s = .next (settled (raise 0x24 (served s)))) ∧
  (∀ (k : Chan) (w : Word) (s : State), busLive s = true → inMakeready s = true → atRest k s = true →
    isLegal k s = true ∧ chctlChange k w s ≠ 0 ∨ isLegal k s = false ∧ bitOf w 13 = true →
    (isLegal k s = true → isClosing s = true →
      exec (.chctlConfigWrite k w) s = .next (settled (raise 0x14 (served s)))) ∧
    (isClosing s = false → legalRoom 0 s = true → s.sl.incr = .none →
      ∃ u, exec (.chctlConfigWrite k w) s = .next (settled u) ∧ isLegal k u = isLegal k s ∧
        (isLegal k s = true → u.fe = s.fe) ∧
        (isLegal k s = false → (u.fe.ch.get k).short = bitOf w 12 ∧ (u.fe.ch.get k).range.toNat = fieldOf w 10 2) ∧
        u.fm = s.fm ∧ u.sl.incr = .logging (s.sl.counter + 1) ∧
        u.sl.deferred = s.sl.deferred ++ [.reg (BitVec.ofNat 6 (0x14 + k.val)) (w &&& 0x3FFF)]) ∧
    (isClosing s = false → legalRoom 0 s = true → s.sl.incr = .done →
      ∃ u, exec (.chctlConfigWrite k w) s = .next (settled u) ∧ u = { served s with ev := u.ev, fe := u.fe, fm := u.fm } ∧
        u.fe.ch.get k = { s.fe.ch.get k with
          cls := bitOf w 13, short := bitOf w 12, range := BitVec.ofNat 2 (fieldOf w 10 2) } ∧
        (∀ j : Chan, j ≠ k → u.fe.ch.get j = s.fe.ch.get j ∧ u.fm.ch.get j = s.fm.ch.get j) ∧
        (bitOf w 13 = isLegal k s → u.fm = s.fm ∧ u.ev = s.ev) ∧
        (bitOf w 13 ≠ isLegal k s → formeComing k s = false →
          u.fm.ch.get k = { s.fm.ch.get k with valid := false } ∧ isSticky (0xC7 + 0x20 * k.val) u = true)))

/-- Start and stop requests by CHCTL, CHSTART and SYNC. They wait in their order, and whether two starts fall into one MOD clock
is open; a start in start-up is held, with event 005h; an empty mask requests nothing; START together with STOP stops; with
SYNCM = 1 GO arms, behind an earlier CANCEL but not behind one in the same word; a SYNC edge while the arming is on its way is
taken or not (the model's choices, log entries 25 and 31). -/
def Obligations.StartAndStopRequests : Prop :=
  (∀ (k : Chan) (w : Word) (s s1 : State), busLive s = true → s1 = chctlConfig k (w ||| 0x8000) (served s) →
    bitOf w 14 = false →
    ∃ u, exec (.channelStartRequest k w) s = .next (settled u) ∧ StartAsked (BitVec.twoPow 4 k.val) s1 u ∧
      u.fe.ch = (modFe k (fun c => { c with startBit := true }) s1).fe.ch ∧ u.fe.goWait = s1.fe.goWait) ∧
  (∀ (k : Chan) (w : Word) (s s1 : State), busLive s = true → s1 = chctlConfig k (w ||| 0x4000) (served s) →
    exec (.channelStopRequest k w) s = .next (settled (modFe k (fun c => { c with stopBit := true })
      { s1 with fe := { s1.fe with stops := s1.fe.stops ++ [BitVec.twoPow 4 k.val] } }))) ∧
  (∀ (k : Chan) (w : Word) (s : State), bitOf w 14 = true →
    exec (.channelStartRequest k w) s = exec (.channelStopRequest k (w ||| 0x8000)) s) ∧
  (∀ (w : Word) (s s1 : State), busLive s = true →
    s1 = { served s with fe := { s.fe with
      syncm := bitOf w 8, mask := BitVec.ofNat 4 (fieldOf w 0 4), cancel := s.fe.cancel || bitOf w 13
      cancelWait := s.fe.cancelWait || bitOf w 13, cancelHits := s.fe.cancelHits || bitOf w 13 } } →
    (bitOf w 14 = false → bitOf w 8 = true →
      exec (.chstartGo w) s = .next (settled { s1 with fe := { s1.fe with
        armed := true, armWait := 2, cancelHits := bitOf w 13 } })) ∧
    (bitOf w 14 = false → bitOf w 8 = false →
      ∃ u, exec (.chstartGo w) s = .next (settled u) ∧ StartAsked (BitVec.ofNat 4 (fieldOf w 0 4)) s1 u ∧
        u.fe.ch = s1.fe.ch ∧ (fieldOf w 0 4 = 0 → u.fe.goWait = 0) ∧ (fieldOf w 0 4 ≠ 0 → 0 < u.fe.goWait)) ∧
    (bitOf w 14 = true → exec (.chstartGo w) s = exec (.chstartStop (w ||| 0x8000)) s) ∧
    exec (.chstartStop w) s = .next (settled { s1 with fe := { s1.fe with
      stops := s1.fe.stops ++ [BitVec.ofNat 4 (fieldOf w 0 4)], stopWait := s1.fe.stops.length + 1 } }) ∧
    (bitOf w 14 = false → bitOf w 15 = false →
      exec (.chstartCancel w) s = .next (settled { s1 with fe := { s1.fe with
        cancel := true, cancelWait := true, cancelHits := true } })) ∧
    (bitOf w 14 = true → exec (.chstartCancel w) s = exec (.chstartStop (w ||| 0x2000)) s) ∧
    (bitOf w 15 = true → exec (.chstartCancel w) s = exec (.chstartGo (w ||| 0x2000)) s)) ∧
  (∀ s : State, sysLive s = true → s.sys.xrun = true →
    (s.fe.cancelWait = true →
      exec .cancelTakesEffect s = .next (settled { s with fe := { s.fe with
        armed := s.fe.armed && !s.fe.cancelHits, cancel := false, cancelWait := false, cancelHits := false } })) ∧
    (∀ s1 : State, s.pwr.vddio = true → s.fe.armed = true →
      s1 = { s with fe := { s.fe with armed := false, armWait := 0, cancelHits := false } } →
      (s.fe.armWait = 0 → ∃ u, exec .syncEdge s = .next (settled u) ∧ StartAsked s.fe.mask s1 u ∧ u.fe.ch = s.fe.ch) ∧
      (s.fe.armWait ≠ 0 → Config.armTaken s.draws = true →
        ∃ u, exec .syncEdge s = .next (settled u) ∧ StartAsked s.fe.mask { s1 with draws := s.draws + 1 } u ∧
          u.fe.ch = s.fe.ch) ∧
      (s.fe.armWait ≠ 0 → Config.armTaken s.draws = false →
        exec .syncEdge s = .next (settled { s with draws := s.draws + 1 }))))

/-- The oldest start request: each of its channels at rest with a valid forme and no load or store in progress becomes STARTING
with its configuration frozen and its forme, its motion reference and the sign of its input-open tests afresh; one that starts
or runs raises B, 7; one without a forme stays, with event 0C4h + 20h × k; one whose calibration is being stored with event
167h + 10h × k. The oldest stop request: each of its channels that starts or runs becomes STOPPED, its drivers off, with event
B, 5; the generator goes on until no channel is STARTING or RUNNING; the FIFO keeps its records (log entries 24, 25, 32). -/
def Obligations.StartsAndStopsTakeEffect : Prop :=
  (∀ (m : BitVec 4) (rest : List (BitVec 4)) (s : State), sysLive s = true → s.sys.xrun = true →
     s.pwr.phase ≠ .startup → s.fe.starts = m :: rest →
     ∃ u, exec .startTakesEffect s = .next (settled u) ∧
       u = { s with ev := u.ev, fe := u.fe, fm := u.fm, cal := u.cal, tone := u.tone } ∧ u.fe.starts = rest ∧
       u.fe.stops = s.fe.stops ∧ u.fe.gen = s.fe.gen ∧ u.fe.goWait = s.fe.goWait - 1 ∧ u.fm.fifo = s.fm.fifo ∧
       ∀ k : Chan,
         (bitOf m k.val = false → u.fe.ch.get k = s.fe.ch.get k ∧ u.fm.ch.get k = s.fm.ch.get k ∧
           u.cal.ch.get k = s.cal.ch.get k) ∧
         (bitOf m k.val = true → atRest k s = false →
           (u.fe.ch.get k).state = (s.fe.ch.get k).state ∧ isSticky (0x57 + 0x20 * k.val) u = true) ∧
         (bitOf m k.val = true → atRest k s = true → ((s.fm.ch.get k).valid = false ∨ loadBusy k s = true) →
           (u.fe.ch.get k).state = (s.fe.ch.get k).state ∧ (u.fe.ch.get k).startBit = false ∧
           isSticky (0xC4 + 0x20 * k.val) u = true) ∧
         (bitOf m k.val = true → atRest k s = true → calBusy k s = true →
           (u.fe.ch.get k).state = (s.fe.ch.get k).state ∧ (u.fe.ch.get k).startBit = false ∧
           isSticky (0x167 + 0x10 * k.val) u = true) ∧
         (bitOf m k.val = true → atRest k s = true → (s.fm.ch.get k).valid = true → loadBusy k s = false →
           calBusy k s = false →
           (u.fe.ch.get k).state = .starting ∧ (u.fe.ch.get k).shortNow = (s.fe.ch.get k).short ∧
           (u.fe.ch.get k).rangeNow = (s.fe.ch.get k).range ∧ (u.fe.ch.get k).gaps = 0 ∧
           (u.fe.ch.get k).openSign = false ∧ (u.fm.ch.get k).outs = 0 ∧ (u.fm.ch.get k).stages = [] ∧
           (u.fm.ch.get k).seq = 0 ∧ (u.fm.ch.get k).ref = 0 ∧ (u.fm.ch.get k).n = 0 ∧
           (u.fm.ch.get k).stable = false ∧ (u.fm.ch.get k).active = (s.fm.ch.get k).active ∧
           (u.cal.ch.get k).working = (s.cal.ch.get k).stored.getD identitySet)) ∧
  (∀ (m : BitVec 4) (rest : List (BitVec 4)) (s : State), sysLive s = true → s.sys.xrun = true →
     s.fe.stops = m :: rest →
     ∃ u, exec .stopTakesEffect s = .next (settled u) ∧
       u = { s with ev := u.ev, fe := u.fe, fm := u.fm, cs := u.cs, tone := u.tone } ∧ u.fe.stops = rest ∧
       u.fe.starts = s.fe.starts ∧ u.fe.stopWait = s.fe.stopWait - 1 ∧ u.fm.fifo = s.fm.fifo ∧
       ((∃ k : Chan, atRest k u = false) → u.fe.gen = s.fe.gen) ∧
       ((∀ k : Chan, atRest k u = true) → (∃ k : Chan, atRest k s = false) → u.fe.gen = false) ∧
       ∀ k : Chan,
         (bitOf m k.val = false → u.fe.ch.get k = s.fe.ch.get k ∧ u.fm.ch.get k = s.fm.ch.get k) ∧
         (bitOf m k.val = true → (u.fe.ch.get k).stopBit = false) ∧
         (bitOf m k.val = true → atRest k s = true → (u.fe.ch.get k).state = (s.fe.ch.get k).state) ∧
         (bitOf m k.val = true → atRest k s = false →
           (u.fe.ch.get k).state = .stopped ∧ (u.fe.ch.get k).drv = false ∧ (u.fe.ch.get k).startBit = false ∧
           isSticky (0x55 + 0x20 * k.val) u = true))

/-- E turns the excitation and the drivers of the waiting channels on; a settled channel delivers its first sample and runs,
with event B, 4; a reversal changes the polarity and begins a gap; the monitor reading of a gap evaluates the detectors of
Table 06-8 on the sensed amplitude, and voids the gap for Kern; the sign of the input-open test alternates (log entries 24 and
32). -/
def Obligations.ExcitationSteps : Prop :=
  (∀ s : State, sysLive s = true → s.sys.xrun = true →
    ∃ u, exec .excitationOn s = .next (settled u) ∧ u = { s with fe := u.fe } ∧
      ((∃ k : Chan, isE k s = true) → u.fe.gen = true ∧
        (s.fe.gen = false → u.fe.phase = 0 ∧ u.fe.pol = (!isDc s || !s.fe.dcpol)) ∧
        (s.fe.gen = true → u.fe.phase = s.fe.phase ∧ u.fe.pol = s.fe.pol)) ∧
      ∀ k : Chan, u.fe.ch.get k = (if isE k s then
        { s.fe.ch.get k with drv := true, waitE := false, settle := settleMt s, dcMt := 0 }
        else s.fe.ch.get k)) ∧
  (∀ (k : Chan) (s : State), sysLive s = true → s.sys.xrun = true → (s.fe.ch.get k).state = .starting →
    (s.fe.ch.get k).drv = true → (s.fe.ch.get k).settle = 0 →
    exec (.firstSample k) s = .next (settled (raise (0x54 + 0x20 * k.val)
      (modFe k (fun c => { c with state := .running, startBit := false, gaps := 0 }) s)))) ∧
  (∀ s : State, sysLive s = true → s.sys.xrun = true → s.fe.gen = true → isDc s = false →
    halfPeriod s ≤ s.fe.phase →
    ∃ u, exec .excitationReversal s = .next (settled u) ∧ u = { s with fe := u.fe } ∧ u.fe.pol = !s.fe.pol ∧
      u.fe.phase = 0 ∧
      ∀ k : Chan, u.fe.ch.get k = { s.fe.ch.get k with
        gaps := if (s.fe.ch.get k).state = .running then (s.fe.ch.get k).gaps + 1 else (s.fe.ch.get k).gaps
        gapBad := false }) ∧
  (∀ (k : Chan) (r : GapReading) (v : Nat) (s : State), sysLive s = true → s.sys.xrun = true → gapEnds k s = true →
    s.ev.act = false → v = sensedUv s.fe.amp r.avdd r.bridge →
    ∃ u, exec (.gapMonitorReading k r) s = .next (settled u) ∧ u = { s with ev := u.ev, fe := u.fe } ∧
      (u.fe.ch.get k).gapBad = (ampOutside s.fe.amp r.avdd v || senseOpen r.bridge || r.notReversed) ∧
      bitOf u.ev.held (0x41 + 0x20 * k.val) = ampOutside s.fe.amp r.avdd v ∧
      bitOf u.ev.held (0x42 + 0x20 * k.val) = (r.bridge.openSense.isSome ||
        decide (500000 < r.bridge.leadP.natAbs ∨ 500000 < r.bridge.leadN.natAbs)) ∧
      bitOf u.ev.held (0x43 + 0x20 * k.val) = leadExcess v r.bridge ∧
      bitOf u.ev.held (0x44 + 0x20 * k.val) = r.notReversed ∧
      (openTestGap k s = false → (u.fe.ch.get k).openSign = (s.fe.ch.get k).openSign) ∧
      (openTestGap k s = true → (u.fe.ch.get k).openSign = !(s.fe.ch.get k).openSign ∧
        bitOf u.ev.held (0x50 + 0x20 * k.val) = (r.openMoved && !(s.fe.ch.get k).shortNow)) ∧
      (ampOutside s.fe.amp r.avdd v = true → bitOf s.ev.held (0x41 + 0x20 * k.val) = false →
        isSticky (0x41 + 0x20 * k.val) u = true ∧
        (isLegal k s = true → bitOf u.ev.legal (0x41 + 0x20 * k.val) = true)))

/-- One turn of the engine. It is counted with the number of its sample set; a check read of a memory with a parity error and
a number out of order raise their events; AVOK follows AVDD; MODTRIM of a trimmed member NODE takes the trim that reduces the
phase error, within ±125 counts, stays as it is while the link searches or joins, and is 0 with the link off; a load and a
copy in progress advance, and end with their last turn; a channel whose drivers are off keeps its forme; the FIFO keeps within
512 records; nothing outside the sample path changes. The modulator reset of a channel ends 32 mt after its input was last
beyond the limit (log entries 15, 49, 53, 54). -/
def Obligations.EngineTurns : Prop :=
  (∀ (t : TurnInput) (s : State), sysLive s = true → s.sys.xrun = true →
    ∃ u, exec (.engineTurn t) s = .next (settled u) ∧
      u = { s with pwr := u.pwr, sys := u.sys, ev := u.ev, fe := u.fe, fm := u.fm, cs := u.cs, tone := u.tone
                   cal := u.cal, kern := u.kern, draws := u.draws } ∧
      u.pwr = { s.pwr with avddOk := decide (4700000 ≤ t.avdd ∧ t.avdd ≤ 5300000) } ∧
      u.sys = { s.sys with
        parity := t.parity, sets := (t.setNo :: s.sys.sets).take 2, turns := s.sys.turns + 1
        modtrim := u.sys.modtrim } ∧
      (isNode s = false → u.sys.modtrim = s.sys.modtrim) ∧
      (isNode s = true → s.gl.trimNow = false ∨ s.gl.state = .off → u.sys.modtrim = 0) ∧
      (isNode s = true → s.gl.trimNow = true → s.gl.state ≠ .off → s.gl.state ≠ .member →
        u.sys.modtrim = s.sys.modtrim) ∧
      (isNode s = true → s.gl.trimNow = true → s.gl.state = .member → injected 0x2A8 s = false →
        u.sys.modtrim.toInt = trimFor (Config.crystalOffset s.draws) (Config.trimSlew s.draws) s.gl.e ∧
        u.sys.modtrim.toInt.natAbs ≤ 125) ∧
      (∀ i : Fin 16, bitOf t.parity i.val = true → bitOf s.ev.held (0x3C0 + i.val) = false →
        isSticky (0x3C0 + i.val) u = true) ∧
      (∀ (n : Nat) (rest : List Nat), s.sys.sets = n :: rest → t.setNo ≠ n + 1 → bitOf s.ev.held 0x3E1 = false →
        isSticky 0x3E1 u = true) ∧
      (∀ d : DynLoad, s.fm.load = some d →
        (1 < d.left → u.fm.load = some { d with left := d.left - 1 }) ∧
        (d.left ≤ 1 → u.fm.load = none ∧ (u.fm.ch.get d.ch).active = d.image ∧
          (u.fm.ch.get d.ch).valid = !isLegal d.ch s ∧ isSticky (0xC0 + 0x20 * d.ch.val) u = true)) ∧
      (∀ c : CaseCopy, s.cs.copy = some c →
        u.cs.copy = if c.left ≤ 1 then none else some { c with left := c.left - 1 }) ∧
      u.fm.fifo.length ≤ max 512 s.fm.fifo.length ∧
      ∀ k : Chan, (s.fe.ch.get k).drv = false →
        (u.fe.ch.get k).state = (s.fe.ch.get k).state ∧
        ((∀ d : DynLoad, s.fm.load = some d → d.ch ≠ k ∨ 1 < d.left) → u.fm.ch.get k = s.fm.ch.get k)) ∧
  (∀ (k : Chan) (n : Nat) (s : State), sysLive s = true → (s.fe.ch.get k).modReset = some n → 32 ≤ n →
    exec (.modulatorResetEnd k) s = .next (settled (modFe k (fun c => { c with modReset := none })
      { s with ev := { s.ev with held := setBit s.ev.held (0x53 + 0x20 * k.val) false } })))

/-- The sample path of one running channel. Its demodulated sample goes through its forme; a chain of fresh stages forms an
output exactly at each multiple of its decimation; the identity calibration changes no sample, and RAW takes the calibration
out; an output is a saturated value with its TAG and its number, admitted to the FIFO by CHEN or TAPEN while that has room,
and lost where an injection forces the overflow; the motion detector counts the samples that stay within its band. -/
def Obligations.SamplePath : Prop :=
  (∀ (k : Chan) (t : TurnInput) (i : ChanInput) (x : Int) (s : State), sysLive s = true → s.sys.xrun = true →
    i = t.ch.get k → (∀ j : Chan, j ≠ k → (s.fe.ch.get j).drv = false) → (s.fe.ch.get k).drv = true →
    (s.fe.ch.get k).state = .running → (s.fe.ch.get k).modReset = none → s.ev.act = false → s.sys.patch = false →
    s.fm.load = none → i.integrator = false → i.thermal = false →
    amplitudeLow (sensedUv s.fe.amp t.avdd i.bridge) = false →
    beyondLinear (s.fe.ch.get k) (sensedUv s.fe.amp t.avdd i.bridge) i.input = false →
    x = demodulated k i t.avdd s →
    ∃ u, exec (.engineTurn t) s = .next (settled u) ∧
      u.fm = (formeSample k x false (modFm k (fun c => { c with age := c.age + 1 }) s)).1.fm ∧
      (u.fe.ch.get k).last = (if inGap s then (s.fe.ch.get k).last else x)) ∧
  (∀ (coef : Nat → Int) (cal : Option CalValues) (ops : List StageOp) (xs : List Int) (x : Int),
    ((runStages coef cal ops (xs.foldl (fun st y => (runStages coef cal ops st y Flow.start).1) []) x
      Flow.start).2.out.isSome = true ↔ decimation ops ∣ xs.length + 1)) ∧
  (∀ x : Int, calStage identityValues x = x) ∧
  (∀ (k : Chan) (x : Int) (b : Bool) (c : Cal) (s : State), bitOf s.fm.raw k.val = true →
    (formeSample k x b { s with cal := c }).1.fm = (formeSample k x b s).1.fm) ∧
  (∀ (k : Chan) (ops : List StageOp) (x : Int) (ovr : Bool) (r : Record) (s u : State), sysLive s = true →
    u = finalOutput k ops x ovr s →
    r = { value := BitVec.ofInt 32 (sat32 (narrow x))
          tag := tagWord k (decide ((s.fm.ch.get k).outs < finalSettle ops)) (fading k s)
            (ovr || decide (sat32 (narrow x) ≠ narrow x)) s.key.void (inMakeready s) false (s.fm.ch.get k).seq } →
    (u.fm.ch.get k).outs = (s.fm.ch.get k).outs + 1 ∧ (u.fm.ch.get k).seq = (s.fm.ch.get k).seq + 1 ∧
    (u.cal.ch.get k).cur = (s.cal.ch.get k).pend.getD (s.cal.ch.get k).cur ∧ (u.cal.ch.get k).pend = none ∧
    (bitOf s.fm.chen k.val = true → s.fm.fifo.length < 512 → injected (0xD1 + 0x20 * k.val) s = false →
      u.fm.fifo = s.fm.fifo ++ [r]) ∧
    (bitOf s.fm.chen k.val = true → 512 ≤ s.fm.fifo.length ∨ injected (0xD1 + 0x20 * k.val) s = true →
      u.fm.fifo = s.fm.fifo ∧ u.fm.ovf = true ∧ isSticky (0xD1 + 0x20 * k.val) u = true) ∧
    (bitOf s.fm.chen k.val = false → u.fm.fifo = s.fm.fifo ∧ u.fm.ovf = s.fm.ovf) ∧
    ((s.fm.ch.get k).outs = finalSettle ops → isSticky (0xD0 + 0x20 * k.val) u = true)) ∧
  (∀ (k : Chan) (ops : List StageOp) (x : Int) (ovr : Bool) (r : Record) (s u : State), sysLive s = true →
    u = tapOutput k ops x ovr s →
    r = { value := BitVec.ofInt 32 (sat32 (narrow x))
          tag := tagWord k (decide ((s.fm.ch.get k).taps < settleCount ((stagesAhead isTap ops).getD [])))
            (fading k s) (ovr || decide (sat32 (narrow x) ≠ narrow x)) s.key.void (inMakeready s) true
            (s.fm.ch.get k).tapSeq } →
    (u.fm.ch.get k).taps = (s.fm.ch.get k).taps + 1 ∧ (u.fm.ch.get k).tapSeq = (s.fm.ch.get k).tapSeq + 1 ∧
    (bitOf s.fm.tapen k.val = true → s.fm.fifo.length < 512 → injected (0xD1 + 0x20 * k.val) s = false →
      u.fm.fifo = s.fm.fifo ++ [r]) ∧
    (bitOf s.fm.tapen k.val = false → u.fm.fifo = s.fm.fifo)) ∧
  (∀ (k : Chan) (unsettled xfade ovr void notSealed tap : Bool) (seq : BitVec 8) (w : Word),
    w = tagWord k unsettled xfade ovr void notSealed tap seq →
    fieldOf w 14 2 = k.val ∧ bitOf w 13 = unsettled ∧ bitOf w 12 = xfade ∧ bitOf w 11 = ovr ∧ bitOf w 10 = void ∧
    bitOf w 9 = notSealed ∧ bitOf w 8 = tap ∧ fieldOf w 0 8 = seq.toNat) ∧
  (∀ (k : Chan) (ops ahead : List StageOp) (m bscale band : Nat) (x : Int) (s u : State), sysLive s = true →
    ops.find? isMotion = some (.motion m bscale band) → stagesAhead isMotion ops = some ahead →
    settleCount ahead < (s.fm.ch.get k).consumed / decimation ahead → (narrow x).natAbs < 2 ^ 31 → s.ev.act = false →
    u = motionSample k ops x s →
    ((narrow x - (s.fm.ch.get k).ref).natAbs ≤ band * 2 ^ bscale →
      (u.fm.ch.get k).ref = (s.fm.ch.get k).ref ∧ (u.fm.ch.get k).n = min ((s.fm.ch.get k).n + 1) 255) ∧
    (band * 2 ^ bscale < (narrow x - (s.fm.ch.get k).ref).natAbs →
      (u.fm.ch.get k).ref = narrow x ∧ (u.fm.ch.get k).n = 0) ∧
    ((u.fm.ch.get k).stable = true ↔ m - 1 ≤ (u.fm.ch.get k).n) ∧
    ((u.fm.ch.get k).stable = true → (s.fm.ch.get k).stable = false → isSticky (0xD3 + 0x20 * k.val) u = true) ∧
    ((u.fm.ch.get k).stable = false → (s.fm.ch.get k).stable = true → isSticky (0xD4 + 0x20 * k.val) u = true))

/-- What Kern and the tone detector take in a turn. Kern counts a sample in the mt 4 to B − 1 of each gap and drops those of a
gap that A, 1, A, 2 or A, 4 voids; in DC it takes its turns' samples; a hold begins with event 16Ch + 10h × k. Kern's solve has
at most 8 st of the spare part, and the tone detector takes its sample where time is left, else it skips it, and hands over a
full block (log entries 16 and 25). -/
def Obligations.KernAndToneSamples : Prop :=
  (∀ (k : Chan) (dcTurn held : Bool) (s u : State), sysLive s = true → u = kernSample k dcTurn s →
    held = (!bitOf s.kern.en k.val || bitOf s.ev.held (0x52 + 0x20 * k.val) || (s.fe.ch.get k).modReset.isSome ||
      (s.fe.ch.get k).gapBad) →
    u = { s with ev := u.ev, kern := u.kern } ∧ (∀ j : Chan, j ≠ k → u.kern.ch.get j = s.kern.ch.get j) ∧
    (u.kern.ch.get k).susp = held ∧
    (held = true → (s.kern.ch.get k).susp = false → isSticky (0x16C + 0x10 * k.val) u = true) ∧
    (isDc s = true → (u.kern.ch.get k).samples =
      (s.kern.ch.get k).samples + (if dcTurn = true ∧ held = false then 1 else 0)) ∧
    (inGap s = true → s.fe.phase + 1 < blankMt s →
      (u.kern.ch.get k).samples = (s.kern.ch.get k).samples ∧
      (u.kern.ch.get k).gapSamples = (s.kern.ch.get k).gapSamples +
        (if held = false ∧ 4 ≤ s.fe.phase ∧
            s.fe.phase < blankMt s - (if 0 < (s.fe.ch.get k).gaps ∧ (s.fe.ch.get k).gaps % 64 = 0 then 4 else 0)
          then 1 else 0)) ∧
    (inGap s = true → s.fe.phase + 1 = blankMt s → (u.kern.ch.get k).gapSamples = 0 ∧
      ((s.fe.ch.get k).gapBad = true → (u.kern.ch.get k).samples = (s.kern.ch.get k).samples) ∧
      ((s.fe.ch.get k).gapBad = false → (s.kern.ch.get k).samples + (s.kern.ch.get k).gapSamples ≤
        (u.kern.ch.get k).samples))) ∧
  (∀ s : State, (isNode s = false ∨ s.sys.modtrim = 0 → spareSt s.draws s = 12) ∧
    11 ≤ spareSt s.draws s ∧ spareSt s.draws s ≤ 13) ∧
  (∀ (x : Int) (left solve : Nat) (b b1 : ToneBlock) (s u : State), s.tone.busy = true →
    left = spareSt s.draws s → solve = (if s.kern.solves = [] then 0 else min 8 s.kern.solveLeft) →
    b = s.tone.block.getD { n := 0, re := 0, im := 0, skipped := false } →
    b1 = { n := b.n + 1, re := b.re + (toneTerm s.tone.usePinc b.n (sat32 (narrow x))).1
           im := b.im + (toneTerm s.tone.usePinc b.n (sat32 (narrow x))).2, skipped := b.skipped } →
    u = spareTurn false (some x) s →
    u = { s with kern := u.kern, tone := u.tone, draws := s.draws + 1 } ∧
    u.kern = { s.kern with solveLeft := s.kern.solveLeft - solve } ∧ u.tone.skipcnt = s.tone.skipcnt ∧
    (b1.n ≤ s.tone.useNm1.toNat → u.tone.block = some b1 ∧ u.tone.due = s.tone.due ∧ u.tone.busy = true) ∧
    (s.tone.useNm1.toNat < b1.n →
      u.tone.block = none ∧ u.tone.due = some b1 ∧ u.tone.busy = s.tone.cont)) ∧
  (∀ (x : Int) (s u : State), u = toneSample x false s →
    u.tone.skipcnt = (if s.tone.skipcnt = 0xFF then 0xFF else s.tone.skipcnt + 1) ∧
    (∀ b1 : ToneBlock, u.tone.block = some b1 → b1.skipped = true) ∧
    (s.tone.useNm1.toNat = 0 → ∃ b1, u.tone.due = some b1 ∧ b1.skipped = true))

/-- The crystal stops: XLOST, event 006h, and every channel that starts or runs halts with A, 8 and B, 8; it returns, and the
numbering of the sample sets begins afresh; the PLL loses lock with event 007h, and locks again. A temperature conversion gives
the reading of its source, or raises B, 14 (log entry 33). -/
def Obligations.ClocksAndTemperatures : Prop :=
  (∀ s : State, sysLive s = true → s.sys.xrun = true →
    ∃ u, exec .crystalStop s = .next (settled u) ∧
      u = { s with sys := u.sys, ev := u.ev, fe := u.fe, fm := u.fm, cs := u.cs, tone := u.tone } ∧
      u.sys = { s.sys with xrun := false, xlost := true } ∧ isSticky 6 u = true ∧
      ∀ k : Chan,
        (atRest k s = true → u.fe.ch.get k = s.fe.ch.get k) ∧
        (atRest k s = false → (u.fe.ch.get k).state = .halted ∧ (u.fe.ch.get k).drv = false ∧
          isSticky (0x48 + 0x20 * k.val) u = true ∧ isSticky (0x58 + 0x20 * k.val) u = true)) ∧
  (∀ s : State, sysLive s = true → s.sys.xrun = false →
    exec .crystalReturn s = .next (settled { s with sys := { s.sys with xrun := true, sets := [] } })) ∧
  (∀ s : State, sysLive s = true → s.sys.plllk = true →
    exec .pllLockLoss s =
      .next (settled (raise 7 { s with sys := { s.sys with plllk := false, plllost := true } }))) ∧
  (∀ s : State, sysLive s = true → s.sys.plllk = false →
    exec .pllRelock s = .next (settled { s with sys := { s.sys with plllk := true } })) ∧
  (∀ (c : TempReading) (s : State), sysLive s = true → s.ev.act = false →
    ∃ u, exec (.tempConversionDone c) s = .next (settled u) ∧ u = { s with ev := u.ev, cal := u.cal } ∧
      u.cal.extTurn = (!s.cal.extTurn && s.cal.txen) ∧
      u.cal.die = (if s.cal.extTurn = false ∧ c.done = true then some c.value else s.cal.die) ∧
      u.cal.ext = (if s.cal.extTurn = true ∧ s.cal.txen = true ∧ c.done = true ∧ c.isOpen = false ∧
        c.isShort = false then some c.value else s.cal.ext) ∧
      (c.done = false → (s.cal.extTurn = false ∨ s.cal.txen = true) → bitOf s.ev.held 0x5E = false →
        isSticky 0x5E u = true))

/-! ## Formes and the FIFO -/

/-- LOAD: refused while the channel is not at rest (0C2h + 20h × k), a load is in progress (0C3h + 20h × k), for a legal-class
channel outside MAKEREADY (024h), during closing (014h), or by the first failing check (0C1h + 20h × k, REF, ERRC, ERRW). A
dynamic-class channel's load then runs for 1,024 st (16 turns: log entry 54); a legal-class channel's store begins, in the slot
of R198 with the pages of Table 07-5, and at its end the forme is active with event 0C0h + 20h × k and code 21h, and a preset's
case is stored next (log entries 34 and 55). -/
def Obligations.FormeLoads : Prop :=
  (∀ (w : Word) (k : Chan) (s s1 s2 : State), busLive s = true → k.val = fieldOf w 12 2 →
     s1 = setRawOf (fun j => !isLegal j s) w { served s with fm := { s.fm with
       src := bitOf w 14, sel := BitVec.ofNat 2 (fieldOf w 12 2), preset := BitVec.ofNat 3 (fieldOf w 9 3) } } →
     (rawChange w s = true → inMakeready s = true →
       s.sl.incr = .done ∧ isClosing s = false ∧ legalRoom 0 s = true) →
     s2 = (if rawChange w s = false then s1 else if inMakeready s then setRaw w s1 else raise 0x24 s1) →
     (atRest k s = false → exec (.formeLoad w) s = .next (settled (raise (0xC2 + 0x20 * k.val) s2))) ∧
     (atRest k s = true → (∃ j : Chan, loadBusy j s = true) →
       exec (.formeLoad w) s = .next (settled (raise (0xC3 + 0x20 * k.val) s2))) ∧
     (atRest k s = true → (∀ j : Chan, loadBusy j s = false) → isLegal k s = true → inMakeready s = false →
       exec (.formeLoad w) s = .next (settled (raise 0x24 s2))) ∧
     (atRest k s = true → (∀ j : Chan, loadBusy j s = false) → (isLegal k s = true → inMakeready s = true) →
       isClosing s = true → exec (.formeLoad w) s = .next (settled (raise 0x14 s2))) ∧
     (atRest k s = true → (∀ j : Chan, loadBusy j s = false) → isClosing s = false →
       (isLegal k s = true → inMakeready s = true ∧ legalRoom 2 s = true) →
       (∀ check word, loaderCheck (isLegal k s) (loadSource k s1) = some (check, word) →
         exec (.formeLoad w) s = .next (settled (raise (0xC1 + 0x20 * k.val) { s2 with fm := { s2.fm with
           ref := true, errc := BitVec.ofNat 4 check, errw := BitVec.ofNat 6 word } }))) ∧
       (loaderCheck (isLegal k s) (loadSource k s1) = none → isLegal k s = false →
         exec (.formeLoad w) s = .next (settled { s2 with fm := { s2.fm with
           loadBit := true
           load := some { ch := k, preset := if bitOf w 14 then some (BitVec.ofNat 3 (fieldOf w 9 3)) else none
                          image := trimImage (loadSource k s1), left := 16 } } })) ∧
       (loaderCheck (isLegal k s) (loadSource k s1) = none → isLegal k s = true →
         ∃ (u : State) (l : LegalStore) (slot gen : Nat), exec (.formeLoad w) s = .next (settled u) ∧
           (slot, gen) = nextStore (storedForme k s) ∧ u.nv = { s.nv with legal := s.nv.legal ++ [l] } ∧
           l.kind = .forme k (bitOf w 14) (BitVec.ofNat 3 (fieldOf w 9 3)) (trimImage (loadSource k s1)) ∧
           l.pages = formePages k slot gen (trimImage (loadSource k s1)) ∧
           u.fm = { s2.fm with loadBit := true } ∧ u.cs = s.cs ∧ u.sl.incr ≠ .none))) ∧
  (∀ (k : Chan) (src : Bool) (preset : BitVec 3) (image : Vector W32 64) (l : LegalStore) (e : Entry) (s : State),
     sysLive s = true → formeDue s = some l → l.kind = .forme k src preset image → isLegal k s = true →
     nextPosition s < 4030 → placesFree 1 s = true →
     e = nowEntry 0x21 (BitVec.ofNat 32 (k.val * 2 ^ 24 + (if src then 2 ^ 23 + preset.toNat * 2 ^ 20 else 0) +
       (crc16 (bytesOfW32s image.toList)).toNat)) s →
     (src = false → ∃ u, exec .formeLoadComplete s = .next (settled u) ∧
       u = { s with ev := u.ev, fm := u.fm, tone := u.tone
                    imp := { s.imp with queue := u.imp.queue, heldSteps := u.imp.heldSteps }
                    nv := { s.nv with legal := s.nv.legal.erase l } } ∧
       (u.fm.ch.get k).active = image ∧ (u.fm.ch.get k).edit = image ∧ (u.fm.ch.get k).valid = true ∧
       (u.fm.ch.get k).gd = gdTable image (activeCase (s.cs.ch.get k)) ∧ isSticky (0xC0 + 0x20 * k.val) u = true ∧
       u.imp.queue ++ u.imp.heldSteps = s.imp.queue ++ s.imp.heldSteps ++ [e]) ∧
     (src = true → s.sl.incr = .done →
       ∃ (u : State) (m : LegalStore) (case : List (Nat × W32)) (slot gen : Nat) (icrc fcrc : Word),
         exec .formeLoadComplete s = .next (settled u) ∧ (slot, gen) = nextPoolSlot s ∧
         case = presetCase preset (activeCase (s.cs.ch.get k)) ∧ icrc = crc16 (caseBytes case) ∧
         fcrc = crc16 (formeBytes image) ∧ (u.fm.ch.get k).active = image ∧ (u.fm.ch.get k).valid = true ∧
         activeCase (u.cs.ch.get k) = case ∧ u.nv.legal = s.nv.legal.erase l ++ [m] ∧
         m.kind = .case k slot icrc (s.cs.ch.get k).act false true ∧
         m.pages = (poolPage slot + 32, trailerPage gen k (s.cs.ch.get k).act false icrc fcrc) ::
           pagesFrom (poolPage slot) (pieces 64 32 (caseBytes case)) ++
             [(poolPage slot + 32, trailerPage gen k (s.cs.ch.get k).act true icrc fcrc)] ∧
         u.imp.queue ++ u.imp.heldSteps = s.imp.queue ++ s.imp.heldSteps ++ [e]))

/-- R211, R237: the three positions of SMPDAT: the first takes the oldest record with a parity check of the FIFO's memory (log
entry 49), a read that finds nothing raises 0D6h; FLUSH. GRPDLY selects a stream and sets its read position to 0; its three
reads give delay [15:0] with the snapshot, delay [31:16], and the settle count in use saturated at FFFFh. -/
def Obligations.SampleAndDelayReads : Prop :=
  (∀ s : State, busLive s = true →
    (∀ r rest, s.fm.pos = 0 → s.fm.fifo = r :: rest → s.fm.sink = false → s.sys.xrun = true →
      ∃ u, exec .smpdatRead s = .next (settled u) ∧
        u = { served s with
          bus := { (served s).bus with driven := true, data := r.value.setWidth 16 }
          fm := { s.fm with fifo := rest, snap := some r, pos := 1 }, ev := u.ev } ∧
        bitOf u.ev.held 0x3CC = bitOf s.sys.parity 12 ∧
        (bitOf s.sys.parity 12 = true → bitOf s.ev.held 0x3CC = false → isSticky 0x3CC u = true) ∧
        (bitOf s.sys.parity 12 = false → s.ev.act = false →
          u.ev = { s.ev with held := setBit s.ev.held 0x3CC false })) ∧
    (∀ r rest, s.fm.pos = 0 → s.fm.fifo = r :: rest → s.fm.sink = false → s.sys.xrun = false →
      ∃ u, exec .smpdatRead s = .next (settled u) ∧
        u = { served s with
          bus := { (served s).bus with driven := true, data := r.value.setWidth 16 }
          fm := { s.fm with fifo := rest, snap := some r, pos := 1 }, ev := u.ev, draws := s.draws + 1 } ∧
        bitOf u.ev.held 0x3CC = Config.parityError s.draws 12) ∧
    (∀ r, s.fm.pos = 1 → s.fm.snap = some r →
      exec .smpdatRead s = .next (settled { served s with
        bus := { (served s).bus with driven := true, data := (r.value >>> 16).setWidth 16 }
        fm := { s.fm with pos := 2 } })) ∧
    (∀ r, s.fm.pos = 2 → s.fm.snap = some r →
      exec .smpdatRead s = .next (settled { served s with
        bus := { (served s).bus with driven := true, data := r.tag }, fm := { s.fm with pos := 0 } })) ∧
    (s.fm.pos = 0 → s.fm.fifo = [] ∨ s.fm.sink = true →
      ∃ u, exec .smpdatRead s = .next (settled u) ∧
        u = { served s with bus := { (served s).bus with driven := true, data := 0 }, ev := u.ev } ∧
        isSticky 0xD6 u = true)) ∧
  (∀ (w : Word) (s : State), busLive s = true →
    exec (.fifoFlush w) s = .next (settled { served s with fm := { s.fm with
      fifo := [], snap := none, pos := 0, sink := isNode s && bitOf w 14, wm := BitVec.ofNat 6 (fieldOf w 8 6)
      chen := BitVec.ofNat 4 (fieldOf w 4 4), tapen := BitVec.ofNat 4 (fieldOf w 0 4) } })) ∧
  (∀ (w : Word) (s : State), busLive s = true →
    exec (.grpdlySelect w) s = .next (settled { served s with cs := { s.cs with
      gdOut := bitOf w 2, gdCh := BitVec.ofNat 2 (fieldOf w 0 2), gdPos := 0 } })) ∧
  (∀ (d : W32) (n : Nat) (s : State), busLive s = true →
    (s.fm.ch.get (chanOf s.cs.gdCh)).valid = true →
    d = (if s.cs.gdOut then (s.fm.ch.get (chanOf s.cs.gdCh)).gd.get 2
         else (s.fm.ch.get (chanOf s.cs.gdCh)).gd.get 0) →
    n = (if s.cs.gdOut then (s.fm.ch.get (chanOf s.cs.gdCh)).gd.get 3
         else (s.fm.ch.get (chanOf s.cs.gdCh)).gd.get 1).toNat →
    s.cs.gdPos = 0 →
    exec .grpdlyRead s = .next (settled { served s with
      bus := { (served s).bus with driven := true, data := d.setWidth 16 }
      cs := { s.cs with gdSnap := some (d, BitVec.ofNat 16 (min 0xFFFF n)), gdPos := 1 } })) ∧
  (∀ (d : W32) (n : Word) (s : State), busLive s = true → s.cs.gdSnap = some (d, n) →
    (s.cs.gdPos = 1 →
      exec .grpdlyRead s = .next (settled { served s with
        bus := { (served s).bus with driven := true, data := (d >>> 16).setWidth 16 }, cs := { s.cs with gdPos := 2 } })) ∧
    (s.cs.gdPos = 2 →
      exec .grpdlyRead s = .next (settled { served s with
        bus := { (served s).bus with driven := true, data := n }, cs := { s.cs with gdPos := 0 } })))

/-! ## Cases, tone detector -/

/-- CPY copies the active case, its parity checked, to the inactive one where that takes a write, and is in progress for 520
st (8 turns: log entry 54), else event 141h + 4k. A switch of a dynamic-class channel at rest makes TGT active at once, with
event 140h + 4k and the delays of the case now active; of a running one it begins a fade; of a legal-class channel it begins
its store, in the slot of R230 with the pages of Sequence 08-1, the trailer's fields low byte first (log entry 55); their ends
make TGT active (log entries 34 and 56). -/
def Obligations.CaseCopiesAndSwitches : Prop :=
  (∀ (w : Word) (k : Chan) (s s1 : State), busLive s = true → k.val = fieldOf w 12 2 →
    s1 = { served s with cs := { s.cs with
      tgt := bitOf w 14, sel := BitVec.ofNat 2 (fieldOf w 12 2), xflen := BitVec.ofNat 4 (fieldOf w 8 4) } } →
    (bitOf w 15 = true → exec (.caseCopy w) s = exec (.caseSwitch (w ||| 0x0080)) s) ∧
    (bitOf w 15 = false → caseAccepts k (!(s.cs.ch.get k).act) s = true →
      (isLegal k s = true → inMakeready s = true) →
      ∃ u, exec (.caseCopy w) s = .next (settled u) ∧
        u = { s1 with ev := (readCase k s1).ev, draws := (readCase k s1).draws, cs := { s1.cs with
          ch := u.cs.ch, copy := some { ch := k, lower := !(s.cs.ch.get k).act, left := 8 }, copyBit := true } } ∧
        u.cs.ch.get k = (if (s.cs.ch.get k).act then { s.cs.ch.get k with upper := (s.cs.ch.get k).lower }
          else { s.cs.ch.get k with lower := (s.cs.ch.get k).upper }) ∧
        ∀ j : Chan, j ≠ k → u.cs.ch.get j = s.cs.ch.get j) ∧
    (bitOf w 15 = false →
      (caseAccepts k (!(s.cs.ch.get k).act) s = false ∨ (isLegal k s = true ∧ inMakeready s = false)) →
      exec (.caseCopy w) s = .next (settled (raise (0x141 + 4 * k.val) s1))) ∧
    (bitOf w 7 = false → isLegal k s = false → atRest k s = true → loadBusy k s = false → anyCaseStore s = false →
      ∃ u, exec (.caseSwitch w) s = .next (settled u) ∧
        u = { s1 with ev := u.ev, fm := { s1.fm with ch := u.fm.ch }, cs := { s1.cs with ch := u.cs.ch } } ∧
        u.cs.ch.get k = { s.cs.ch.get k with act := bitOf w 14 } ∧ isSticky (0x140 + 4 * k.val) u = true ∧
        u.fm.ch.get k = { s.fm.ch.get k with
          gd := gdTable (s.fm.ch.get k).active (caseOf (s.cs.ch.get k) (bitOf w 14)) } ∧
        ∀ j : Chan, j ≠ k → u.cs.ch.get j = s.cs.ch.get j ∧ u.fm.ch.get j = s.fm.ch.get j) ∧
    (bitOf w 7 = false → isLegal k s = false → atRest k s = false → loadBusy k s = false →
      anyCaseStore s = false → (s.cs.ch.get k).fade = none → 4 ≤ fieldOf w 8 4 → fieldOf w 8 4 ≤ 12 →
      exec (.caseSwitch w) s = .next (settled (modCs k
        (fun c => { c with
          fade := some { tgt := bitOf w 14, xflen := fieldOf w 8 4, begun := false, frames := 0 } }) s1))) ∧
    (bitOf w 7 = false → isLegal k s = true → inMakeready s = false →
      exec (.caseSwitch w) s = .next (settled (raise 0x24 s1))) ∧
    (bitOf w 7 = false → isLegal k s = true → inMakeready s = true → isClosing s = false →
      legalRoom 1 s = true → atRest k s = true → loadBusy k s = false → anyCaseStore s = false →
      ∃ (u : State) (l : LegalStore) (slot gen : Nat) (icrc fcrc : Word),
        exec (.caseSwitch w) s = .next (settled u) ∧ (slot, gen) = nextPoolSlot s ∧
        icrc = crc16 (caseBytes (caseOf (s.cs.ch.get k) (bitOf w 14))) ∧
        fcrc = crc16 (formeBytes (s.fm.ch.get k).active) ∧
        u.nv = { s.nv with legal := s.nv.legal ++ [l] } ∧ l.kind = .case k slot icrc (bitOf w 14) true false ∧
        l.pages = (poolPage slot + 32, trailerPage gen k (bitOf w 14) false icrc fcrc) ::
          pagesFrom (poolPage slot) (pieces 64 32 (caseBytes (caseOf (s.cs.ch.get k) (bitOf w 14)))) ++
            [(poolPage slot + 32, trailerPage gen k (bitOf w 14) true icrc fcrc)] ∧
        u.cs = s1.cs ∧ u.sl.incr ≠ .none)) ∧
  (∀ (k : Chan) (slot : Nat) (icrc : Word) (tgt switch preset : Bool) (l : LegalStore) (s : State),
    sysLive s = true → committedStore isCaseKind s = some l → l.kind = .case k slot icrc tgt switch preset →
    nextPosition s < 4030 → placesFree 1 s = true →
    ∃ u, exec .caseStoreComplete s = .next (settled u) ∧
      u = { s with ev := u.ev, fm := u.fm, cs := u.cs
                   imp := { s.imp with queue := u.imp.queue, heldSteps := u.imp.heldSteps }
                   nv := { s.nv with legal := s.nv.legal.erase l } } ∧
      u.cs.ch.get k = { s.cs.ch.get k with
        act := if switch then tgt else (s.cs.ch.get k).act, rstf := false } ∧
      (switch = true → isSticky (0x140 + 4 * k.val) u = true ∧
        (u.fm.ch.get k).gd = gdTable (s.fm.ch.get k).active (caseOf (s.cs.ch.get k) tgt)) ∧
      u.imp.queue ++ u.imp.heldSteps = s.imp.queue ++ s.imp.heldSteps ++
        [nowEntry 0x20 (BitVec.ofNat 32 ((600 + 33 * slot) * 65536 + icrc.toNat)) s]) ∧
  (∀ (k : Chan) (f : Fade) (s : State), sysLive s = true → (s.cs.ch.get k).fade = some f → f.begun = true →
    2 ^ f.xflen ≤ f.frames →
    ∃ u, exec (.crossfadeEnd k) s = .next (settled u) ∧ u = { s with ev := u.ev, fm := u.fm, cs := u.cs } ∧
      u.cs.ch.get k = { s.cs.ch.get k with act := f.tgt, fade := none } ∧
      isSticky (0x140 + 4 * k.val) u = true)

/-- TONECTL: a pointer opens the data phase, in which the next write is stored and a read answers the parameter; a START is
refused with event 155h under the conditions of R241, else BUSY sets with the parameters in use and a block in progress is
abandoned with event 156h; a STOP abandons it and clears BUSY, also together with a START (log entry 25); the result of a block
sets RDY with event 150h. -/
def Obligations.ToneDetector : Prop :=
  (∀ (w : Word) (s : State), busLive s = true →
    (s.tone.dph = false →
      exec (.tonePointerWrite w) s = .next (settled { served s with tone := { s.tone with
        dph := true, pidx := BitVec.ofNat 3 (fieldOf w 0 3) } })) ∧
    (s.tone.dph = true →
      exec (.toneParamWrite w) s = .next (settled { served s with tone := { s.tone with
        dph := false, param := s.tone.param.setIfInBounds s.tone.pidx.toNat w } }) ∧
      exec (.tonePointerWrite w) s = exec (.toneParamWrite (w ||| 0x8000)) s ∧
      exec (.toneStart w) s = exec (.toneParamWrite ((w &&& 0x7FFF) ||| 0x4000)) s ∧
      exec (.toneStop w) s = exec (.toneParamWrite ((w &&& 0x7FFF) ||| 0x2000)) s ∧
      exec .toneParamRead s = .next (settled { served s with
        bus := { (served s).bus with driven := true, data := (s.tone.param[s.tone.pidx.toNat]?).getD 0 }
        tone := { s.tone with dph := false } }))) ∧
  (∀ (w : Word) (s s1 : State), busLive s = true → s.tone.dph = false →
    s1 = { served s with tone := { s.tone with
      sel := BitVec.ofNat 2 (fieldOf w 11 2), cont := bitOf w 6, thenBit := bitOf w 5 } } →
    (bitOf w 13 = false → toneRefused s1 = true →
      exec (.toneStart w) s = .next (settled (raise 0x155 s1))) ∧
    (bitOf w 13 = false → toneRefused s1 = false → s.tone.due = none →
      ∃ u, exec (.toneStart w) s = .next (settled u) ∧ u = { s1 with ev := u.ev, tone := u.tone } ∧
        u.tone = { s1.tone with
          useCh := BitVec.ofNat 2 (fieldOf w 11 2), usePinc := joinWords (toneParam s 0) (toneParam s 1)
          useThr := joinWords (toneParam s 2) (toneParam s 3), useNm1 := toneParam s 4, busy := true
          skipcnt := 0, blockNo := 0, block := none } ∧
        (s.tone.block ≠ none → isSticky 0x156 u = true)) ∧
    (∃ u, exec (.toneStop w) s = .next (settled u) ∧ u = { s1 with ev := u.ev, tone := u.tone } ∧
      u.tone = { s1.tone with block := none, busy := false } ∧
      (s.tone.block ≠ none → isSticky 0x156 u = true) ∧ (s.tone.block = none → u.ev = s.ev)) ∧
    (bitOf w 13 = true → exec (.toneStart w) s = exec (.toneStop (w ||| 0x4000)) s)) ∧
  (∀ (b : ToneBlock) (s : State), sysLive s = true → s.tone.due = some b → s.ev.act = false →
    ∃ u, exec .toneBlockResult s = .next (settled u) ∧
      u = { s with ev := u.ev, tone := u.tone, draws := s.draws + 1 } ∧
      u.tone.due = none ∧ u.tone.rdy = true ∧ u.tone.skipd = b.skipped ∧
      u.tone.ovrn = (s.tone.ovrn || s.tone.rdy) ∧ u.tone.resNo = s.tone.blockNo ∧
      u.tone.blockNo = s.tone.blockNo + 1 ∧
      u.tone.above = (s.tone.thenBit && decide (s.tone.useThr.toNat ≤ u.tone.resM.toNat)) ∧
      isSticky 0x150 u = true ∧ (s.tone.rdy = true → isSticky 0x154 u = true) ∧
      (b.skipped = true → isSticky 0x153 u = true) ∧
      (u.tone.above = true → s.tone.above = false → isSticky 0x151 u = true) ∧
      (s.tone.thenBit = true → u.tone.above = false → s.tone.above = true → isSticky 0x152 u = true))

/-! ## Calibration and Kern -/

/-- STORE: refused in RUN and start-up with event 024h, during closing with 014h, by the first failing check of Table 09-2
with ERRC and event 161h + 10h × k, else its store begins, in the slot that does not hold the stored set (slot 0 where neither
holds one: log entry 55) with the pages of Table 09-3; its end sets VALID with event 160h + 10h × k and code 22h. A STORE that
leaves TXEN as it is changes no RWM field (log entry 22). RELOAD copies the stored set to the buffer, or clears it, and is
ignored during a store. -/
def Obligations.CalibrationStores : Prop :=
  (∀ (w : Word) (k : Chan) (s s1 : State), busLive s = true → k.val = fieldOf w 12 2 →
    s1 = { served s with cal := { s.cal with
      sel := BitVec.ofNat 2 (fieldOf w 12 2), tview := bitOf w 10 } } →
    (bitOf w 14 = false → inMakeready s = false →
      exec (.calStore w) s = .next (settled (raise 0x24 s1))) ∧
    (bitOf w 14 = false → inMakeready s = true → isClosing s = true →
      exec (.calStore w) s = .next (settled (raise 0x14 s1))) ∧
    (bitOf w 14 = false → inMakeready s = true → isClosing s = false → bitOf w 11 = s.cal.txen →
      (calCheck k s ≠ 0 →
        exec (.calStore w) s = .next (settled (raise (0x161 + 0x10 * k.val)
          { s1 with cal := { s1.cal with errc := BitVec.ofNat 3 (calCheck k s) } }))) ∧
      (calCheck k s = 0 → legalRoom 1 s = false →
        exec (.calStore w) s = .next (settled (raise 0x14 s1))) ∧
      (calCheck k s = 0 → legalRoom 1 s = true →
        ∃ (u : State) (l : LegalStore) (slot gen : Nat), exec (.calStore w) s = .next (settled u) ∧
          (slot, gen) = nextStore (storedCal k s) ∧ u.nv = { s.nv with legal := s.nv.legal ++ [l] } ∧
          l.kind = .cal k slot (s.cal.ch.get k).buf ∧ l.pages = calPages k slot gen (s.cal.ch.get k).buf ∧
          u.cal = { s1.cal with errc := 0 } ∧ u.sl.incr ≠ .none)) ∧
    (bitOf w 15 = false → bitOf w 11 = s.cal.txen →
      exec (.calReload w) s = .next (settled (if (∃ j : Chan, calBusy j s = true) then s1 else
        modCal k (fun c => { c with
          buf := match c.stored with | some set => set | none => Vector.replicate 33 0 }) s1))) ∧
    (bitOf w 14 = true → exec (.calStore w) s = exec (.calReload (w ||| 0x8000)) s)) ∧
  (∀ (k : Chan) (slot : Nat) (set : Vector W32 33) (l : LegalStore) (s : State), sysLive s = true →
    committedStore isCalKind s = some l → l.kind = .cal k slot set → nextPosition s < 4030 → placesFree 1 s = true →
    ∃ u, exec .calStoreComplete s = .next (settled u) ∧
      u = { s with ev := u.ev, cal := { s.cal with ch := u.cal.ch }
                   imp := { s.imp with queue := u.imp.queue, heldSteps := u.imp.heldSteps }
                   nv := { s.nv with legal := s.nv.legal.erase l } } ∧
      u.cal.ch.get k = { s.cal.ch.get k with stored := some set } ∧ isSticky (0x160 + 0x10 * k.val) u = true ∧
      u.imp.queue ++ u.imp.heldSteps = s.imp.queue ++ s.imp.heldSteps ++
        [nowEntry 0x22 (BitVec.ofNat 32 (k.val * 2 ^ 24 + fieldOf (set.get 0) 0 4 * 2 ^ 20 +
          (if bitOf (set.get 0) 4 then 2 ^ 19 else 0) + 2 ^ 18 * slot + (crc16 (bytesOfW32s set.toList)).toNat)) s])

/-- Kern: an epoch of 2^20 samples requests a solve; a solve that has run its time makes its estimate pending, unless FRZ = 1
or Kern is off; a pending correction raises its timeout once; RST clears the estimate and the coefficients of channel QSEL,
and is refused on a legal-class channel outside MAKEREADY with event 024h. One application on a legal-class channel keeps the
sum of the coefficients within ±16 LSB, and neither the rises nor the falls add up to more than 3,435 LSB, the most that changes
no transfer function by more than 0.25 ppm of FS. The estimates are free values (log entry 13; the bound: log entry 14). -/
def Obligations.KernSteps : Prop :=
  (∀ (k : Chan) (s : State), sysLive s = true → 2 ^ 20 ≤ (s.kern.ch.get k).samples →
    ∃ u, exec (.kernEpochEnd k) s = .next (settled u) ∧ u = { s with kern := u.kern } ∧ k ∈ u.kern.solves ∧
      (∀ j, j ∈ s.kern.solves → j ∈ u.kern.solves) ∧
      (u.kern.ch.get k).samples = (s.kern.ch.get k).samples - 2 ^ 20 ∧
      (u.kern.ch.get k).applied = (s.kern.ch.get k).applied) ∧
  (∀ (k : Chan) (rest : List Chan) (s : State), sysLive s = true → s.kern.solves = k :: rest →
    s.kern.solveLeft = 0 →
    ∃ u, exec .kernSolveEnd s = .next (settled u) ∧
      u = { s with ev := u.ev, kern := u.kern, draws := s.draws + 1 } ∧ u.kern.solves = rest ∧
      (u.kern.ch.get k).q ≠ 0xFFFF ∧ (u.kern.ch.get k).applied = (s.kern.ch.get k).applied ∧
      (s.kern.frz = false → bitOf s.kern.en k.val = true → (u.kern.ch.get k).pend ≠ none) ∧
      ((s.kern.frz = true ∨ bitOf s.kern.en k.val = false) →
        (u.kern.ch.get k).pend = (s.kern.ch.get k).pend) ∧
      ∀ j : Chan, j ≠ k → u.kern.ch.get j = s.kern.ch.get j) ∧
  (∀ (k : Chan) (s : State), sysLive s = true → (s.kern.ch.get k).pend ≠ none →
    (s.kern.ch.get k).late = false →
    exec (.kernPendingTimeout k) s =
      .next (settled (raise (0x16B + 0x10 * k.val) (modKern k (fun c => { c with late := true }) s)))) ∧
  (∀ (w : Word) (k : Chan) (s : State), busLive s = true → k.val = fieldOf w 6 2 →
    (isLegal k s = false ∨ inMakeready s = true →
      ∃ u, exec (.kernReset w) s = .next (settled u) ∧ (u.kern.ch.get k).applied = Vector.replicate 16 0 ∧
        (u.kern.ch.get k).pend = none ∧ (u.kern.ch.get k).q = 0xFFFF ∧ (u.kern.ch.get k).samples = 0 ∧
        k ∉ u.kern.solves ∧ u.kern.qsel = BitVec.ofNat 2 (fieldOf w 6 2) ∧ u.nv = s.nv ∧ u.fe = s.fe) ∧
    (isLegal k s = true → inMakeready s = false →
      ∃ u, exec (.kernReset w) s = .next (settled u) ∧ isSticky 0x24 u = true ∧
        (u.kern.ch.get k).applied = (s.kern.ch.get k).applied ∧
        (u.kern.ch.get k).q = (s.kern.ch.get k).q ∧ u.kern.qsel = BitVec.ofNat 2 (fieldOf w 6 2))) ∧
  (∀ (want : Nat) (a p v : List Int), a.length = 16 → p.length = 16 →
    (∀ x ∈ a ++ p, -(2 ^ 31) ≤ x ∧ x < 2 ^ 31) → a.sum.natAbs ≤ 16 → p.sum.natAbs ≤ 16 →
    v = kernMove want a p →
    v.length = 16 ∧ (∀ x ∈ v, -(2 ^ 31) ≤ x ∧ x < 2 ^ 31) ∧ v.sum.natAbs ≤ 16 ∧
    ((List.zipWith (fun x y => y - x) a v).map Int.toNat).sum ≤ 3435 ∧
    ((List.zipWith (fun x y => y - x) a v).map (fun x => (-x).toNat)).sum ≤ 3435)

/-! ## The Galley link -/

/-- A superframe origin. The link key is latched, RNG and TRIM come into use, a waiting restart is taken. On a HUB the link
starts with a fresh SN, SFN 0 and event 2A0h, runs on with SFN + 1, or stops with event 2A1h, and a running link sends a beacon,
which leaves the pin while VDDIO is present. A NODE goes to OFF with EN = 0, or through OFF to SEARCH on a restart, and then
drops a held downlink (log entry 27). -/
def Obligations.SuperframeOrigins : Prop :=
  (∀ s : State, sysLive s = true → isNode s = false →
    ∃ u, exec .superframeOrigin s = .next (settled u) ∧
      u = { s with ev := u.ev, gl := u.gl, draws := u.draws } ∧
      u.gl.key = s.key.link ∧ u.gl.zkey = !bitOf s.key.pres 1 ∧ u.gl.keyCut = false ∧ u.gl.rngNow = s.gl.rng ∧
      u.gl.trimNow = s.gl.trim ∧ u.gl.ht = s.gl.ht + 12288 ∧ u.gl.restart = false ∧
      u.gl.restartBit = (s.gl.restartBit && !s.gl.restart) ∧ u.gl.queue = s.gl.queue ∧
      (∀ a, (u.gl.node.get a).member = (s.gl.node.get a).member) ∧
      (s.gl.en = false → s.gl.state = .off → u.ev = s.ev ∧ u.gl.state = .off ∧ u.gl.tx = s.gl.tx) ∧
      (s.gl.en = false → s.gl.state = .run →
        u.gl.state = .off ∧ u.gl.slot = none ∧ u.gl.job = none ∧ isSticky 0x2A1 u = true ∧ u.gl.tx = s.gl.tx) ∧
      (s.gl.en = true → s.gl.state = .run → s.gl.restart = false →
        u.gl.state = .run ∧ u.gl.sfn = s.gl.sfn + 1 ∧ u.gl.job = s.gl.job ∧
        (s.gl.sfn ≠ 0xFFFFFFFF → u.gl.sn = s.gl.sn ∧ (s.sys.xrun = true → u.draws = s.draws)) ∧
        (s.gl.keyed = true → s.key.link ≠ s.gl.key → isSticky 0x2A4 u = true)) ∧
      (s.gl.en = true → s.gl.state ≠ .run ∨ s.gl.restart = true →
        u.gl.state = .run ∧ u.gl.sfn = 0 ∧ isSticky 0x2A0 u = true ∧
        (bitOf s.key.pres 1 = false → isSticky 0x2A3 u = true)) ∧
      (s.gl.en = true → u.gl.slot = some 0 ∧ (linkPins s = false → u.gl.tx = none) ∧
        (linkPins s = true → ∃ f, u.gl.tx = some f ∧ f.header = headerWord 1 0 11 ∧ f.body.length = 11 ∧
          crcGood f = true ∧ macGood s.key.link u.gl.sn u.gl.sfn none f = true ∧ bodyPair f 5 = u.gl.sfn ∧
          bodyPair f 7 = u.gl.sn ∧ bodyWord f 10 = BitVec.ofNat 16 (memberMask s)))) ∧
  (∀ s : State, sysLive s = true → isNode s = true →
    ∃ u, exec .superframeOrigin s = .next (settled u) ∧
      u = { s with ev := u.ev, gl := u.gl } ∧
      u.gl.key = s.key.link ∧ u.gl.zkey = !bitOf s.key.pres 1 ∧ u.gl.keyCut = false ∧ u.gl.rngNow = s.gl.rng ∧
      u.gl.trimNow = s.gl.trim ∧ u.gl.restart = false ∧ u.gl.restartBit = (s.gl.restartBit && !s.gl.restart) ∧
      (s.gl.rng = false → u.gl.adv = 0) ∧ (s.gl.trim = false → u.gl.algn = false) ∧
      u.gl.state = (if s.gl.state = .off ∨ s.gl.en = false then .off
        else if s.gl.restart then .search else s.gl.state) ∧
      (s.gl.state ≠ .off → s.gl.en = false ∨ s.gl.restart = true → u.gl.held = none ∧ u.gl.slot = none) ∧
      (s.gl.state ≠ .off → s.gl.en = true → s.gl.restart = true →
        u.gl.useAddr = s.gl.addr ∧ isSticky 0x2A0 u = true) ∧
      (s.gl.state ≠ .off → s.gl.en = true → s.gl.restart = false →
        u.gl.held = s.gl.held ∧ (s.gl.state ≠ .search → u.gl.slot = some 0) ∧
        (s.gl.keyed = true → s.key.link ≠ s.gl.key → isSticky 0x2A4 u = true)))

/-- A NODE takes a beacon through its RX FIFO: event 2A5h for one that is too long, 1A1h for a bad CRC, 2A2h for a frame of
another TYPE, 1A2h for a bad MAC, and for every MAC until the origin after a zeroize, 1A3h for an SFN or SN that the session
does not allow; an injection forces such a check to fail (R149, log entry 21); a valid one sets the timing and moves the state
as Table 10-7 says. A missed beacon raises event 1A4h; the fourth in a row leads to SEARCH, for a member as hub loss with ORPH
and event 1A5h. A lost LNK lock raises event 2A6h (log entry 27). -/
def Obligations.NodeBeacons : Prop :=
  (∀ (f : Frame) (e : Int) (s s0 s1 : State), nodeOn s = true → s.ev.act = false →
    s0 = parityRead 13 { s with gl := { s.gl with rx := some f } } →
    s1 = { s0 with sys := { s0.sys with lnklk := true } } →
    (64 < f.body.length + 4 →
      exec (.beaconReceived f e) s = .next (settled (raise 0x2A5 { s with gl := { s.gl with rx := none } }))) ∧
    (f.body.length + 4 ≤ 64 → crcGood f = false →
      exec (.beaconReceived f e) s = .next (settled (raise 0x1A1 s0))) ∧
    (crcGood f = true → f.body.length + 4 ≤ 64 → frameFits f = false →
      exec (.beaconReceived f e) s = .next (settled s0)) ∧
    (crcGood f = true → frameFits f = true → frameType f ≠ 1 →
      exec (.beaconReceived f e) s = .next (settled (if s.gl.state = .search then s0 else raise 0x2A2 s0))) ∧
    (crcGood f = true → frameFits f = true → frameType f = 1 → s.gl.state ≠ .search →
      (s.gl.keyCut = true ∨ macGood s.gl.key (bodyPair f 7) (bodyPair f 5) none f = false →
        exec (.beaconReceived f e) s = .next (settled (raise 0x1A2 s1))) ∧
      (s.gl.keyCut = false → macGood s.gl.key (bodyPair f 7) (bodyPair f 5) none f = true →
        (bodyPair f 7 = s.gl.sn ∧ (bodyPair f 5).toNat ≤ s.gl.bSfn.toNat) ∨
          (bodyPair f 7 ≠ s.gl.sn ∧ (s.gl.bSfn ≠ 0xFFFFFFFF ∨ s.gl.state ≠ .member)) →
        s.gl.state ≠ .run → exec (.beaconReceived f e) s = .next (settled (raise 0x1A3 s1)))) ∧
    (crcGood f = true → frameFits f = true → frameType f = 1 → s.gl.state = .search → majorOf (bodyWord f 0) ≠ 1 →
      macGood s.key.link (bodyPair f 7) (bodyPair f 5) none f = true →
      ∃ u, exec (.beaconReceived f e) s = .next (settled u) ∧ u = { s1 with ev := u.ev, gl := u.gl } ∧
        u.gl.state = .search ∧ u.gl.majorSeen = true ∧ u.gl.sfn = s.gl.sfn ∧
        (s.gl.majorSeen = false → isSticky 0x1A7 u = true)) ∧
    (crcGood f = true → frameFits f = true → frameType f = 1 → s.gl.state ≠ .run → majorOf (bodyWord f 0) = 1 →
      (s.gl.state ≠ .search → s.gl.keyCut = false) →
      macGood (if s.gl.state = .search then s.key.link else s.gl.key) (bodyPair f 7) (bodyPair f 5) none f = true →
      (s.gl.state = .search ∨ (bodyPair f 7 = s.gl.sn ∧ s.gl.bSfn.toNat < (bodyPair f 5).toNat) ∨
        (s.gl.state = .member ∧ bodyPair f 7 ≠ s.gl.sn ∧ s.gl.bSfn = 0xFFFFFFFF)) →
      ∃ u, exec (.beaconReceived f e) s = .next (settled u) ∧
        u = { s with sys := { s.sys with lnklk := true }, ev := u.ev, gl := u.gl, draws := u.draws } ∧
        isSticky 0x1A0 u = true ∧ u.gl.sfn = bodyPair f 5 ∧ u.gl.bSfn = bodyPair f 5 ∧ u.gl.sn = bodyPair f 7 ∧
        u.gl.missed = 0 ∧ u.gl.e = e ∧ u.gl.slot = some 0 ∧
        u.gl.adv = (if s.gl.rngNow = false then 0
          else if fieldOf (bodyPair f 5) 0 4 = s.gl.useAddr.toNat then (bodyWord f 9).toNat else s.gl.adv) ∧
        u.gl.l = 64 * ((u.gl.bHt.toNat : Int) + 80) + u.gl.adv ∧ u.gl.useAddr = s.gl.useAddr ∧
        (s.gl.state = .search → u.gl.state = .lock ∧ u.gl.good = 0) ∧
        (s.gl.state = .lock → e.natAbs * 1000000000 < 1000 * 786432000 →
          u.gl.state = (if 7 ≤ s.gl.good then .join else .lock)) ∧
        (s.gl.state = .lock → 1000 * 786432000 ≤ e.natAbs * 1000000000 → u.gl.state = .lock ∧ u.gl.good = 0) ∧
        (s.gl.state = .join → bitOf (bodyWord f 10) s.gl.useAddr.toNat = true →
          u.gl.state = .member ∧ u.gl.orph = false ∧ isSticky 0x1A6 u = true) ∧
        (s.gl.state = .join → bitOf (bodyWord f 10) s.gl.useAddr.toNat = false → u.gl.state = .join) ∧
        (s.gl.state = .member →
          u.gl.state = (if bitOf (bodyWord f 10) s.gl.useAddr.toNat then .member else .join)))) ∧
  (∀ (f : Frame) (e : Int) (s : State), nodeOn s = true → f.body.length + 4 ≤ 64 →
    (injected 0x1A1 s = true → exec (.beaconReceived f e) s =
      .next (settled (edge 0x1A1 true (parityRead 13 { s with gl := { s.gl with rx := some f } })))) ∧
    (injected 0x2A5 s = true → exec (.beaconReceived f e) s =
      .next (settled (edge 0x2A5 true { s with gl := { s.gl with rx := none } })))) ∧
  (∀ s : State, nodeTimed s = true →
    ∃ u, exec .beaconMissed s = .next (settled u) ∧ isSticky 0x1A4 u = true ∧
      u.gl.sfn = s.gl.sfn + 1 ∧ u.gl.l = s.gl.l + 64 * 12288 ∧ u.nv.mem = s.nv.mem ∧ u.fe = s.fe ∧ u.fm = s.fm ∧
      (s.gl.missed < 3 → u.gl.state = s.gl.state ∧ u.gl.missed = s.gl.missed + 1 ∧ u.gl.orph = s.gl.orph ∧
        u.gl.held = s.gl.held) ∧
      (3 ≤ s.gl.missed → u.gl.state = .search ∧ u.gl.useAddr = s.gl.addr ∧ u.gl.missed = 0 ∧ u.gl.held = none) ∧
      (3 ≤ s.gl.missed → s.gl.state = .member → u.gl.orph = true ∧ isSticky 0x1A5 u = true ∧
        (s.bus.localSeen = false → u.sl.token = [] ∧ u.key.stage = [] ∧ u.nv.dph = false ∧ u.bus.stage = none))) ∧
  (∀ s : State, sysLive s = true → isNode s = true → s.sys.lnklk = true →
    exec .lnkLockLoss s =
      .next (settled (raise 0x2A6 { s with sys := { s.sys with lnklk := false } })))

/-- Uplinks. A member sends DATA with its STAT, RASTAT and RADATA and up to four records of the FIFO; a NODE in JOIN sends
JOIN; between a zeroize and the next origin nothing is sent and no MAC passes; the records pass the parity check of the FIFO
(log entry 49), and an injection forces a check of a frame to fail. A HUB ranges and stores an authentic DATA uplink with
event 1A0h + 10h × a, admits a JOIN with event 1A6h or 1A9h + 10h × a, refuses one of another major version with event 1A7h +
10h × a, and declares a NODE lost at the third slot in a row without one, with event 1A5h + 10h × a (log entries 27 and 28).
-/
def Obligations.UplinksAndMembership : Prop :=
  (∀ s : State, sysLive s = true → isNode s = true →
    (s.gl.keyCut = true ∨ (s.gl.state ≠ .member ∧ s.gl.state ≠ .join) → exec .uplinkSend s = .next (settled s)) ∧
    (s.gl.keyCut = false → s.gl.state = .member →
      ∃ u f, exec .uplinkSend s = .next (settled u) ∧
        u = { s with ev := u.ev, fm := u.fm, gl := u.gl, draws := u.draws } ∧
        (s.sys.xrun = true → u.draws = s.draws) ∧
        u.fm = { s.fm with fifo := if s.fm.sink then s.fm.fifo.drop 4 else s.fm.fifo } ∧
        u.gl = { s.gl with
          tx := if linkPins s then some f else none, rastat := 0, radata := 0, firstUp := false, slot := u.gl.slot } ∧
        u.gl.slot.map (·.val) = some s.gl.useAddr.toNat ∧ f.header = headerWord 2 s.gl.useAddr.toNat 15 ∧
        f.body.length = 15 ∧ bodyWord f 1 = s.gl.rastat ∧ bodyWord f 2 = s.gl.radata ∧ crcGood f = true ∧
        macGood s.gl.key s.gl.sn s.gl.sfn (some s.gl.nn) f = true ∧
        ∃ recs : List Record,
          recs = (if s.fm.sink then (s.fm.fifo.take 4).filter
            (fun r => bitOf (s.gl.hubCap &&& ownCap) 2 || !bitOf r.tag 8) else []) ∧
          bodyWord f 0 = statWord recs.length { s with
            fm := u.fm
            ev := (if s.fm.sink then forAll (s.fm.fifo.take 4) (fun _ => parityRead 12) s else s).ev } ∧
          f.body.drop 3 = ((recs.map fun r : Record => [(r.value >>> 16).setWidth 16, r.value.setWidth 16, r.tag]).flatten ++
            List.replicate 12 0).take 12) ∧
    (s.gl.keyCut = false → s.gl.state = .join →
      ∃ u f, exec .uplinkSend s = .next (settled u) ∧
        u = { s with ev := u.ev, draws := u.draws, gl := { s.gl with
          tx := if linkPins s then some f else none, slot := u.gl.slot } } ∧
        (s.sys.xrun = true → u.draws = s.draws) ∧
        f.header = headerWord 3 s.gl.useAddr.toNat 15 ∧ f.body.length = 15 ∧ bodyPair f 0 = s.gl.nn ∧
        crcGood f = true ∧ macGood s.gl.key s.gl.sn s.gl.sfn none f = true)) ∧
  (∀ (c : Instr) (a : Station) (f : Frame) (delta : Int) (s s0 s1 : State), hubSlot a s = true → s.ev.act = false →
    c = .uplinkReceived a f delta ∨ c = .joinReceived a f delta →
    s0 = modNode a (fun n => { n with seen := true })
      { s with gl := { s.gl with slot := some (a.castLE (by decide)) } } →
    s1 = parityRead 13 { s0 with gl := { s0.gl with rx := some f } } →
    (64 < f.body.length + 4 →
      exec c s = .next (settled (raise 0x2A5 { s0 with gl := { s0.gl with rx := none } }))) ∧
    (f.body.length + 4 ≤ 64 → crcGood f = false → exec c s = .next (settled (raise (0x1A1 + 0x10 * a.val) s1))) ∧
    (f.body.length + 4 ≤ 64 → crcGood f = true → frameFits f = false → exec c s = .next (settled s1)) ∧
    (crcGood f = true → frameFits f = true →
      (frameAddr f ≠ a.val ∨ (frameType f ≠ 2 ∧ frameType f ≠ 3)) →
      exec c s = .next (settled (raise 0x2A2 s1))) ∧
    (crcGood f = true → frameFits f = true → frameAddr f = a.val → frameType f = 2 →
      s.gl.keyCut = true ∨ macGood s.gl.key s.gl.sn s.gl.sfn (some (s.gl.node.get a).nn) f = false →
      exec c s = .next (settled (raise (0x1A2 + 0x10 * a.val) s1))) ∧
    (crcGood f = true → frameFits f = true → frameAddr f = a.val → frameType f = 2 → s.gl.keyCut = false →
      macGood s.gl.key s.gl.sn s.gl.sfn (some (s.gl.node.get a).nn) f = true →
      ∃ (u : State) (m : Int), exec c s = .next (settled u) ∧ u = { s with ev := u.ev, gl := u.gl, draws := u.draws } ∧
        isSticky (0x1A0 + 0x10 * a.val) u = true ∧ m = 2 * ((s.gl.node.get a).sentDly : Int) + delta ∧
        (u.gl.node.get a).words = vecOf 14 0 (s.gl.sfn.setWidth 16 :: bodyWord f 0 :: f.body.drop 3) ∧
        (u.gl.node.get a).heard = true ∧ (u.gl.node.get a).member = (s.gl.node.get a).member ∧
        (∀ r, (s.gl.node.get a).rtt = some r → (m - r).natAbs ≤ 512 →
          (u.gl.node.get a).rtt = some (r + roundAway (m - r) 16)) ∧
        (∀ r, (s.gl.node.get a).rtt = some r → 512 < (m - r).natAbs →
          (u.gl.node.get a).rtt = some m ∧ isSticky (0x1AA + 0x10 * a.val) u = true) ∧
        ((s.gl.node.get a).rtt = none → (u.gl.node.get a).rtt = some m) ∧
        (∀ r, (u.gl.node.get a).rtt = some r →
          (u.gl.node.get a).dly = min (roundAway r 2).toNat 2048 ∧
          (2048 < (roundAway r 2).toNat → isSticky (0x1AB + 0x10 * a.val) u = true)) ∧
        (∀ b, b ≠ a → u.gl.node.get b = s.gl.node.get b) ∧
        (confirms a f s = false → u.gl.job = s.gl.job ∧ u.gl.queue = s.gl.queue ∧ u.gl.res = s.gl.res) ∧
        (confirms a f s = true → u.gl.job = none ∧ u.gl.goBit = false ∧ u.gl.res = 1 ∧
          isSticky (0x1AC + 0x10 * a.val) u = true ∧
          ∀ j i, s.gl.job = some j → readPair s.gl.queue j.nacc = some i →
            u.gl.queue = s.gl.queue.setIfInBounds (2 * i + 1) (bodyWord f 2))) ∧
    (crcGood f = true → frameFits f = true → frameAddr f = a.val → frameType f = 3 →
      (s.gl.keyCut = true ∨ macGood s.gl.key s.gl.sn s.gl.sfn none f = false →
        exec c s = .next (settled (raise (0x1A2 + 0x10 * a.val) s1))) ∧
      (s.gl.keyCut = false → macGood s.gl.key s.gl.sn s.gl.sfn none f = true →
        ∃ u, exec c s = .next (settled u) ∧ u = { s with ev := u.ev, gl := u.gl, draws := u.draws } ∧
          (u.gl.node.get a).words = (s.gl.node.get a).words ∧ u.gl.job = s.gl.job ∧
          (∀ b, b ≠ a → u.gl.node.get b = s.gl.node.get b) ∧
          (majorOf (bodyWord f 2) ≠ 1 → isSticky (0x1A7 + 0x10 * a.val) u = true ∧
            (u.gl.node.get a).member = (s.gl.node.get a).member ∧ (u.gl.node.get a).nn = (s.gl.node.get a).nn) ∧
          (majorOf (bodyWord f 2) = 1 →
            (u.gl.node.get a).member = true ∧ (u.gl.node.get a).nn = bodyPair f 0 ∧
            (u.gl.node.get a).rtt = some (2 * ((s.gl.node.get a).sentDly : Int) + delta) ∧
            isSticky ((if (s.gl.node.get a).member then 0x1A9 else 0x1A6) + 0x10 * a.val) u = true)))) ∧
  (∀ (c : Instr) (a : Station) (f : Frame) (delta : Int) (s s0 : State), hubSlot a s = true →
    c = .uplinkReceived a f delta ∨ c = .joinReceived a f delta → f.body.length + 4 ≤ 64 →
    s0 = modNode a (fun n => { n with seen := true })
      { s with gl := { s.gl with slot := some (a.castLE (by decide)) } } →
    injected (0x1A1 + 0x10 * a.val) s = true →
    exec c s = .next (settled (edge (0x1A1 + 0x10 * a.val) true
      (parityRead 13 { s0 with gl := { s0.gl with rx := some f } })))) ∧
  (∀ (a : Station) (s : State), sysLive s = true → isNode s = false → s.gl.state = .run → a ≠ 0 → s.ev.act = false →
    ∃ (u : State) (n : Nat), exec (.nodeSlotEnd a) s = .next (settled u) ∧ u = { s with ev := u.ev, gl := u.gl } ∧
      n = (if (s.gl.node.get a).member ∧ (s.gl.node.get a).heard = false then (s.gl.node.get a).missed + 1 else 0) ∧
      u.gl.slot.map (·.val) = some (a.val + 1) ∧
      (u.gl.node.get a).heard = false ∧ (u.gl.node.get a).seen = false ∧
      (u.gl.node.get a).words = (s.gl.node.get a).words ∧
      ((s.gl.node.get a).seen = false → isSticky (0x1A4 + 0x10 * a.val) u = true) ∧
      (n < 3 → (u.gl.node.get a).member = (s.gl.node.get a).member ∧ (u.gl.node.get a).missed = n) ∧
      (3 ≤ n → (u.gl.node.get a).member = false ∧ isSticky (0x1A5 + 0x10 * a.val) u = true) ∧
      (accessTo a s = false → u.gl.job = s.gl.job ∧ u.gl.res = s.gl.res) ∧
      (confirmationDue a s = true → u.gl.job = none ∧ u.gl.res = 2 ∧ isSticky (0x1AD + 0x10 * a.val) u = true) ∧
      ∀ b, b ≠ a → u.gl.node.get b = s.gl.node.get b)

/-- Remote access. GO is refused with RES = 11b and event 2AAh under the conditions of R306, else the queue waits for its
slot, is sent as an authentic downlink, not between a zeroize and the next origin, and a broadcast ends with event 2ABh. A
NODE holds an authentic downlink for its next origin and executes its accesses in order, however many, with event 1ACh, or
reports a refused one with event 1ADh; a set of the RTC and an injection among them mark the st as local ones do (log entry
48). A GLCTL write with RESTART = 1, whose restart follows a change of ADDR in the same word; ADDR = 0 is refused (the model's
choices: log entries 27 and 28). -/
def Obligations.RemoteAccess : Prop :=
  (∀ (w : Word) (reads : Nat) (target : NodeRec) (s s1 : State), busLive s = true → isNode s = false →
    s1 = { served s with gl := { s.gl with
      bcast := bitOf w 14, localX := bitOf w 13, tgt := BitVec.ofNat 4 (fieldOf w 8 4)
      nacc := BitVec.ofNat 4 (fieldOf w 0 4) } } →
    reads = readCount (accessPairs (fieldOf w 0 4) s.gl.queue.toList) →
    target = (s.gl.node[fieldOf w 8 4]?).getD (s.gl.node.get 0) →
    (goRefused s1 = true ↔
      s.gl.state ≠ .run ∨ s.gl.job ≠ none ∨ fieldOf w 0 4 = 0 ∨ 8 < fieldOf w 0 4 ∨
      (bitOf w 14 = true ∧ (0 < reads ∨
        ∃ a, (s.gl.node.get a).member = true ∧ bitOf (s.gl.node.get a).caps 1 = false)) ∨
      (bitOf w 14 = false ∧ (1 < reads ∨ target.member = false ∨ (0 < reads ∧ bitOf target.caps 0 = false)))) ∧
    (goRefused s1 = true →
      exec (.remoteAccessGo w) s = .next (settled (raise 0x2AA { s1 with gl := { s1.gl with res := 3 } }))) ∧
    (goRefused s1 = false →
      ∃ j : RemoteJob, exec (.remoteAccessGo w) s =
        .next (settled { s1 with gl := { s1.gl with job := some j, res := 0, goBit := true } }) ∧
        j.bcast = bitOf w 14 ∧ j.localX = (bitOf w 14 && bitOf w 13) ∧ j.tgt.val = fieldOf w 8 4 ∧
        j.nacc = fieldOf w 0 4 ∧ j.sent = none)) ∧
  (∀ (j : RemoteJob) (s : State), sysLive s = true → isNode s = false → s.gl.job = some j →
    (s.gl.state = .run → j.sent = none → s.gl.keyCut = true → exec .downlinkSend s = .next (settled s)) ∧
    (s.gl.state = .run → j.sent = none → s.gl.keyCut = false →
      ∃ u f, exec .downlinkSend s = .next (settled u) ∧
        u = { s with ev := u.ev, draws := u.draws, gl := { s.gl with
          job := some { j with sent := some s.gl.sfn }, tx := if linkPins s then some f else none
          held := u.gl.held, slot := some 16 } } ∧
        f.header = (if j.bcast then headerWord 5 0 f.body.length else headerWord 4 j.tgt.val f.body.length) ∧
        f.body = sentPairs (accessPairs j.nacc s.gl.queue.toList) ∧ crcGood f = true ∧
        macGood s.gl.key s.gl.sn s.gl.sfn (if j.bcast then none else some (s.gl.node.get j.tgt).nn) f = true ∧
        u.gl.held = (if j.localX then some { pairs := accessPairs j.nacc s.gl.queue.toList, sfn := s.gl.sfn
                                             unicast := false, refused := false } else s.gl.held)) ∧
    (j.bcast = true → j.sent ≠ none →
      exec .downlinkSlotEnd s =
        .next (settled (raise 0x2AB { s with gl := { s.gl with job := none, goBit := false, res := 1 } }))) ∧
    (j.bcast = false → exec .downlinkSlotEnd s = .next (settled s))) ∧
  (∀ (c : Instr) (f : Frame) (s s0 : State), linkPins s = true → nodeTimed s = true → s.ev.act = false →
    c = .downlinkReceived f ∨ c = .broadcastReceived f →
    s0 = parityRead 13 { s with gl := { s.gl with rx := some f } } →
    (64 < f.body.length + 4 →
      exec c s = .next (settled (raise 0x2A5 { s with gl := { s.gl with rx := none } }))) ∧
    (f.body.length + 4 ≤ 64 → crcGood f = false → exec c s = .next (settled (raise 0x1A1 s0))) ∧
    (crcGood f = true → f.body.length + 4 ≤ 64 →
      (frameFits f = false ∨ (frameType f = 4 ∧ frameAddr f ≠ s.gl.useAddr.toNat)) →
      exec c s = .next (settled s0)) ∧
    (crcGood f = true → frameFits f = true → frameType f < 4 → exec c s = .next (settled (raise 0x2A2 s0))) ∧
    (crcGood f = true → frameFits f = true →
      (frameType f = 4 ∧ frameAddr f = s.gl.useAddr.toNat) ∨ frameType f = 5 →
      (s.gl.keyCut = true ∨
          macGood s.gl.key s.gl.sn s.gl.sfn (if frameType f = 4 then some s.gl.nn else none) f = false →
        exec c s = .next (settled (raise 0x1A2 s0))) ∧
      (s.gl.keyCut = false →
        macGood s.gl.key s.gl.sn s.gl.sfn (if frameType f = 4 then some s.gl.nn else none) f = true →
        exec c s = .next (settled { s0 with gl := { s0.gl with slot := some 16, held := some {
          pairs := accessPairs 8 f.body, sfn := s.gl.sfn, unicast := decide (frameType f = 4)
          refused := if frameType f = 4
            then decide (1 < readCount (accessPairs 8 f.body)) ||
              (decide (0 < readCount (accessPairs 8 f.body)) && !bitOf (s.gl.hubCap &&& ownCap) 0)
            else decide (0 < readCount (accessPairs 8 f.body)) || !bitOf (s.gl.hubCap &&& ownCap) 1 } } })))) ∧
  (∀ (h : Held) (s : State), sysLive s = true → s.gl.held = some h →
    (h.refused = true →
      exec .downlinkExecute s = .next (settled (raise 0x1AD { s with gl := { s.gl with
        held := none
        rastat := if h.unicast then BitVec.ofNat 16 (0x9000 + h.sfn.toNat % 256) else s.gl.rastat
        radata := if h.unicast then 0 else s.gl.radata } }))) ∧
    (∀ r : Word × State, h.refused = false → h.pairs.length ≤ 8 →
      r = h.pairs.foldl (fun x p =>
          if sysLive x.2 = false then x
          else if bitOf p.1 15 then busRead (BitVec.ofNat 6 (fieldOf p.1 0 6)) x.2
          else (x.1, busWrite (BitVec.ofNat 6 (fieldOf p.1 0 6)) p.2 x.2))
        (0, { s with gl := { s.gl with held := none } }) →
      ∃ u, exec .downlinkExecute s = .next { settled u with mark := downlinkMark s } ∧
        (sysLive r.2 = false → u = r.2) ∧ (sysLive r.2 = true → h.unicast = false → u = raise 0x1AC r.2) ∧
        (sysLive r.2 = true → h.unicast = true → u = raise 0x1AC { r.2 with gl := { r.2.gl with
          rastat := BitVec.ofNat 16 (0x8000 + h.pairs.length * 256 + h.sfn.toNat % 256), radata := r.1 } })) ∧
    ((∀ p ∈ h.pairs, bitOf p.1 15 = true ∨ (fieldOf p.1 0 6 ≠ 0x12 ∧ fieldOf p.1 0 6 ≠ 0x3A)) →
      downlinkMark s = .none) ∧
    (∀ p rest, h.pairs = p :: rest → h.refused = false → bitOf p.1 15 = false →
      (fieldOf p.1 0 6 = 0x3A → setsRtc (downlinkMark s) = true) ∧
      (fieldOf p.1 0 6 = 0x12 → injectAllowed (fieldOf p.2 0 10) s = true → isDetector (fieldOf p.2 0 10) = false →
        injects (downlinkMark s) = true))) ∧
  (∀ (w : Word) (s s0 s1 : State), busLive s = true →
    s0 = { served s with gl := { s.gl with restartBit := true } } →
    s1 = (if inMakeready s = false then
        if glctlChange w s = true ∨ (isNode s = true ∧ fieldOf w 0 4 = 0) then raise 0x24 s0 else s0
      else if isNode s = true ∧ fieldOf w 0 4 = 0 then raise 0x2A7 s0 else s0) →
    (inMakeready s = true → glctlChange w s = false) →
    (s.gl.en = false →
      exec (.linkRestart w) s = .next (settled { s1 with gl := { s1.gl with restartBit := false } })) ∧
    (s.gl.en = true → isNode s = true → (s.gl.state = .off ∨ s.gl.state = .search) →
      ∃ u, exec (.linkRestart w) s = .next (settled u) ∧ u = { s1 with ev := u.ev, gl := u.gl } ∧
        u.gl.state = .search ∧ u.gl.useAddr = s.gl.addr ∧ u.gl.restartBit = false ∧ isSticky 0x2A0 u = true) ∧
    (s.gl.en = true → (isNode s = false ∨ (s.gl.state ≠ .off ∧ s.gl.state ≠ .search)) →
      exec (.linkRestart w) s = .next (settled { s1 with gl := { s1.gl with restart := true } }))) ∧
  (∀ (w : Word) (s : State), busLive s = true → inMakeready s = true → isNode s = true → bitOf w 15 = true →
    fieldOf w 0 4 ≠ 0 → glctlChange w s = true → isClosing s = false →
    (s.sl.incr = .done → legalRoom 0 s = true →
      ∃ u, exec (.linkRestart w) s = .next (settled u) ∧ u = { served s with ev := u.ev, gl := u.gl } ∧
        u.gl.addr.toNat = fieldOf w 0 4 ∧
        (s.gl.state = .off ∨ s.gl.state = .search →
          u.gl.state = .search ∧ u.gl.useAddr = u.gl.addr ∧ u.gl.restartBit = false) ∧
        (s.gl.state ≠ .off → s.gl.state ≠ .search →
          u.gl.state = s.gl.state ∧ u.gl.useAddr = s.gl.useAddr ∧ u.gl.restart = true)) ∧
    (s.sl.incr = .none → legalRoom 0 s = true →
      ∃ u, exec (.linkRestart w) s = .next (settled u) ∧ u.gl = { s.gl with restartBit := true } ∧
        u.sl.incr = .logging (s.sl.counter + 1) ∧ u.sl.deferred = s.sl.deferred ++ [.reg 0x2B (w ||| 0x1000)]))

/-! ## The Frisket guard -/

/-- A pass begins with an accepted program, reads and clears the glitch latches, checks the battery, and finds CALSW closed with
its default program; a pass cut short raises event 34Ch. The release of the clear line; a supply glitch latches and trips source
10 at once, with a zeroize where FKRESP says so; the LFXO fails over (log entry 43 on the order within a pass, 36 on the
mailbox). -/
def Obligations.FrisketPasses : Prop :=
  (∀ (r : PassReading) (s : State), s.pwr.phase ≠ .unpowered →
    ∃ u, exec (.frisketPass r) s = .next (settled u) ∧
      u = { s with
        ev := u.ev, imp := u.imp, bkp := u.bkp, key := u.key, fk := u.fk, sl := u.sl, sh := u.sh, gl := u.gl } ∧
      u.sh.sram = s.sh.sram ∧ u.bkp.sec = s.bkp.sec ∧
      u.fk.active = s.fk.next.getD s.fk.active ∧ u.fk.next = none ∧ u.fk.lmodeNow = s.fk.lmode ∧
      u.fk.glitchA = false ∧ u.fk.glitchB = false ∧
      (s.fk.bklow = false → u.fk.bklow = decide (r.vbatMv.toNat < 2200)) ∧
      (s.fk.bklow = true → u.fk.bklow = !(decide (2300 ≤ r.vbatMv.toNat) && decide (7 ≤ s.fk.bkGood))) ∧
      (s.fk.next.getD s.fk.active = defaultProgram →
        (r.switch.get 2).above = false → 50 ≤ (r.switch.get 2).current / 100 → (r.switch.get 2).current / 100 ≤ 150 →
        u.fk.calBoth = true ∧ u.fk.calAge = 0 ∧ ((s.fk.src.get 6).armed = true →
          u.fk.caltrip = true ∧ (u.fk.src.get 6).armed = false ∧
          (s.pwr.phase = .lockup → u.fk.lktrip = true) ∧
          (responseOf s.fk 6 = 2 → s.key.clear = false → u.key.pres = 0 ∧ u.fk.zout = true)))) ∧
  (∀ s : State, s.pwr.phase ≠ .unpowered →
    (s.fk.passOpen = true →
      exec .passWindowEnd s =
        .next (settled (post 0x34C { s with fk := { s.fk with passOpen := false } }))) ∧
    (s.key.clear = true →
      exec .zeroizeRelease s = .next (settled { s with
        key := { s.key with clear := false }, fk := { s.fk with zout := false, pulseAlert := false } })) ∧
    (s.sys.lfxrun = true →
      exec .lfxoFailover s = .next (settled (post 9 (post 8 { s with
        sys := { s.sys with lfxrun := false, bkprc := true, lfxlost := true } }))))) ∧
  (∀ (a b : Bool) (s : State), s.pwr.phase ≠ .unpowered →
    ∃ u, exec (.supplyGlitch a b) s = .next (settled u) ∧
      u = { s with
        ev := u.ev, imp := u.imp, bkp := u.bkp, key := u.key, fk := u.fk, sl := u.sl, sh := u.sh, gl := u.gl } ∧
      u.fk.glitchA = (s.fk.glitchA || a) ∧ u.fk.glitchB = (s.fk.glitchB || b) ∧
      ((a || b) = true → (s.fk.src.get 10).armed = true →
        (u.fk.src.get 10).armed = false ∧ bitOf u.fk.etrip 3 = true ∧
        (responseOf s.fk 10 = 2 → s.key.clear = false →
          u.key.clear = true ∧ u.key.pres = 0 ∧ u.key.sign = 0 ∧ u.key.link = 0 ∧ u.key.ver = 0 ∧ u.key.host = 0 ∧
          u.key.void = true ∧ u.fk.zout = true) ∧
        (responseOf s.fk 10 ≠ 2 → u.key = s.key)))

/-- The trips of the other sources and their classification. A loop that is driven to a level and reads another, a case input
whose level or code lies outside, an environment detector in condition trips its armed source: the trip bit, LKTRIP in LOCKUP,
the zeroize where FKRESP says so. The codes of R319. After eight evaluations the trip is classified: code 34h and DFLT where
only one detector was in condition throughout, else the source's tamper code; eight evaluations in a row without a condition arm
a source again (log entry 43). -/
def Obligations.FrisketTrips : Prop :=
  (∀ r : LoopReading, (loopCode r).toNat = (match r.ohms with | some n => min 255 (n / 1000) | none => 255)) ∧
  (∀ r : SwitchReading, (switchCode r).toNat = min 255 (r.current / 100)) ∧
  (∀ (r : LoopReading) (b : Bool),
    (r.hold = .between → loopDiffers r (some b) = true) ∧
    (r.hold = .high → loopDiffers r (some b) = !b) ∧ (r.hold = .low → loopDiffers r (some b) = b) ∧
    (r.hold = .free → r.ohms = none → loopDiffers r (some b) = true) ∧
    (∀ n, r.hold = .free → r.ohms = some n → n ≤ 254000 → loopDiffers r (some b) = false)) ∧
  (∀ (i : Fin 11) (r : PassReading) (p : Vector W32 32) (s : State), s.pwr.phase ≠ .unpowered →
    p = s.fk.next.getD s.fk.active → (s.fk.src.get i).armed = true →
    ((∃ k : Fin 4, i.val = k.val ∧ fieldOf (p.get 0) 28 4 = 1 ∧ bitOf (p.get 0) 23 = false ∧
        bitOf (p.get 0) (24 + k.val) = true ∧ fieldOf (p.get 1) 28 4 = 3 ∧ bitOf (p.get 1) (24 + k.val) = true ∧
        (fieldOf s.fk.lmode (2 * k.val) 2 = 1 ∨ fieldOf s.fk.lmode (2 * k.val) 2 = 2) ∧
        loopDiffers (r.loop.get k) (some (decide (fieldOf s.fk.lmode (2 * k.val) 2 = 1))) = true) ∨
      (∃ j : Fin 2, i.val = 4 + j.val ∧ fieldOf (p.get 0) 28 4 = 5 ∧ bitOf (p.get 0) (25 + j.val) = true ∧
        bitOf s.fk.caseen j.val = true ∧
        ((r.switch.get (j.castLE (by decide))).above = true ∨
          (switchCode (r.switch.get (j.castLE (by decide)))).toNat < fieldOf (p.get 0) 0 8 ∨
          fieldOf (p.get 0) 8 8 < (switchCode (r.switch.get (j.castLE (by decide)))).toNat)) ∨
      (∃ j : Fin 3, i.val = 7 + j.val ∧ p = defaultProgram ∧ (j = 0 → s.pwr.bkpOnVdd = false) ∧
        (r.envA.get j = true ∨ r.envB.get j = true))) →
    ∃ u, exec (.frisketPass r) s = .next (settled u) ∧ (u.fk.src.get i).armed = false ∧
      (i.val < 4 → bitOf u.fk.ltrip i.val = true) ∧ (4 ≤ i.val → i.val < 6 → bitOf u.fk.ctrip (i.val - 4) = true) ∧
      (7 ≤ i.val → bitOf u.fk.etrip (i.val - 7) = true) ∧ (s.pwr.phase = .lockup → u.fk.lktrip = true) ∧
      (responseOf s.fk i.val = 2 → u.key.pres = 0 ∨ s.key.clear = true) ∧
      (responseOf s.fk i.val = 2 → s.key.clear = false → u.fk.zout = true ∧ u.key.void = true)) ∧
  (∀ (e : SrcEval) (i : Fin 11) (t t1 : Trip) (s u : State), sysLive s = true → e.seen = true → e.inj = false →
    (s.fk.src.get i).trip = some t → t.injected = false → t1 = countTrip e t → u = settleSource e i s →
    (t.evals < 7 → (u.fk.src.get i).trip = some t1 ∧ t1.evals = t.evals + 1 ∧ u.imp = s.imp ∧ u.fk.dflt = s.fk.dflt) ∧
    (t.evals = 7 → (u.fk.src.get i).trip = none ∧
      (t1.both = false → (t1.onlyA = true ∨ t1.onlyB = true) → u.fk.dflt = true) ∧
      (nextPosition s < 4030 → s.imp.queue.length < 28 → u.imp = { s.imp with queue := s.imp.queue ++ [
        { code := if t1.both = false ∧ (t1.onlyA = true ∨ t1.onlyB = true) then 0x34
            else if i.val < 4 then 0x30 else if i.val < 7 then 0x31 else 0x32
          time := t.time, frac := t.frac
          data := BitVec.ofNat 32 (i.val * 2 ^ 24 + 2 ^ 23 * flag t1.firstA + 2 ^ 22 * flag t1.firstB +
            2 ^ 21 * flag t1.both + 2 ^ 20 * flag t.inLockup + t.resp.toNat * 2 ^ 18 +
            (if i.val < 7 then t1.code.toNat else 0)) }] }))) ∧
  (∀ (e : SrcEval) (t : Trip),
    (countTrip e t).both = (t.both || (e.a && e.b)) ∧ (countTrip e t).onlyA = (t.onlyA && e.a && !e.b) ∧
    (countTrip e t).onlyB = (t.onlyB && e.b && !e.a)) ∧
  (∀ (e : SrcEval) (x : Source), x.armed = false →
    ((e.a || e.b) = true → countQuiet e x = { x with quiet := 0 }) ∧
    ((e.a || e.b) = false → x.quiet < 7 → countQuiet e x = { x with quiet := x.quiet + 1 }) ∧
    ((e.a || e.b) = false → 7 ≤ x.quiet → countQuiet e x = { x with armed := true, quiet := 0 }))

/-- PAPPLY: refused outside MAKEREADY and during closing; the staging program is checked by Table 11-3, a failure sets PERR
with event 34Bh; one that passes becomes active at the next pass start, a changed one once the increment has committed; PAPPLY
reads 1 until then. With a new LMODE, CASEEN or LIVETEST in the same word the check takes the new values, which change whether
it passes or not (the model's choice: log entry 26). FKRESP: a write of a page, refused for a reserved code with event 34Bh,
at once or behind the increment; reads alternate between the pages (log entry 22 on a write that repeats a page). -/
def Obligations.FrisketRegisters : Prop :=
  (∀ (w : Word) (s : State), busLive s = true → fkctlChange w s = false →
    (inMakeready s = false → exec (.programApply w) s = .next (settled (raise 0x24 (served s)))) ∧
    (inMakeready s = true → isClosing s = true →
      exec (.programApply w) s = .next (settled (raise 0x14 (served s)))) ∧
    (inMakeready s = true → isClosing s = false →
      (applyCheck s.fk.lmode s.fk.caseen s.fk.staging ≠ 0 →
        exec (.programApply w) s = .next (settled (raise 0x34B { served s with
          fk := { s.fk with perr := BitVec.ofNat 4 (applyCheck s.fk.lmode s.fk.caseen s.fk.staging) } }))) ∧
      (applyCheck s.fk.lmode s.fk.caseen s.fk.staging = 0 →
        (s.fk.staging = s.fk.active ∨ (s.sl.incr = .done ∧ legalRoom 0 s = true)) →
        exec (.programApply w) s =
          .next (settled { served s with
            fk := { s.fk with perr := 0, next := some s.fk.staging, papply := true } })) ∧
      (applyCheck s.fk.lmode s.fk.caseen s.fk.staging = 0 → s.fk.staging ≠ s.fk.active → legalRoom 0 s = true →
        s.sl.incr = .none →
        ∃ u, exec (.programApply w) s = .next (settled u) ∧ u.fk = { s.fk with perr := 0, papply := true } ∧
          u.sl.incr = .logging (s.sl.counter + 1) ∧
          u.sl.deferred = s.sl.deferred ++ [.program s.fk.staging]))) ∧
  (∀ (w : Word) (check : Nat) (f : Frisket) (s : State), busLive s = true → inMakeready s = true → isClosing s = false →
    legalRoom 0 s = true → fkctlChange w s = true →
    check = applyCheck (BitVec.ofNat 8 (fieldOf w 8 8)) (BitVec.ofNat 2 (fieldOf w 6 2)) s.fk.staging →
    f = { s.fk with
      lmode := BitVec.ofNat 8 (fieldOf w 8 8), caseen := BitVec.ofNat 2 (fieldOf w 6 2), livetest := bitOf w 5 } →
    (s.sl.incr = .done → exec (.programApply w) s = .next (settled
      (if check = 0 then { served s with fk := { f with perr := 0, next := some s.fk.staging, papply := true } }
       else raise 0x34B { served s with fk := { f with perr := BitVec.ofNat 4 check } }))) ∧
    (s.sl.incr = .none →
      ∃ u, exec (.programApply w) s = .next (settled u) ∧ u.sl.incr = .logging (s.sl.counter + 1) ∧
        (check = 0 → s.fk.staging ≠ s.fk.active → u.fk = { s.fk with perr := 0, papply := true } ∧
          u.sl.deferred = s.sl.deferred ++ [.reg 0x2F (w ||| 0x0010), .program s.fk.staging]) ∧
        (check ≠ 0 → u.fk = { s.fk with perr := BitVec.ofNat 4 check } ∧ isSticky 0x34B u = true ∧
          u.sl.deferred = s.sl.deferred ++ [.reg 0x2F (w ||| 0x0010)]))) ∧
  (∀ s : State, bitOf (busRead 0x2F s).1 4 = s.fk.papply) ∧
  (∀ (v : Word) (s s1 : State), busLive s = true →
    s1 = { served s with fk := { s.fk with respPage := false } } →
    (inMakeready s = false → exec (.fkrespWrite v) s = .next (settled (raise 0x24 s1))) ∧
    (inMakeready s = true → fkrespBad v = true →
      exec (.fkrespWrite v) s = .next (settled (raise 0x34B s1))) ∧
    (inMakeready s = true → fkrespBad v = false → isClosing s = false → legalRoom 0 s = true → s.sl.incr = .done →
      exec (.fkrespWrite v) s = .next (settled { s1 with fk := { s1.fk with
        resp0 := if bitOf v 15 then s.fk.resp0 else BitVec.ofNat 12 (fieldOf v 0 12)
        resp1 := if bitOf v 15 then BitVec.ofNat 10 (fieldOf v 0 10) else s.fk.resp1 } })) ∧
    (inMakeready s = true → fkrespBad v = false →
      (if bitOf v 15 then fieldOf v 0 10 ≠ s.fk.resp1.toNat else fieldOf v 0 12 ≠ s.fk.resp0.toNat) →
      (isClosing s = true → exec (.fkrespWrite v) s = .next (settled (raise 0x14 s1))) ∧
      (isClosing s = false → legalRoom 0 s = true → s.sl.incr = .none →
        ∃ u, exec (.fkrespWrite v) s = .next (settled u) ∧ u.fk = s1.fk ∧
          u.sl.incr = .logging (s.sl.counter + 1) ∧ u.sl.deferred = s.sl.deferred ++ [.reg 0x31 v]))) ∧
  (∀ s : State, busLive s = true →
    exec .fkrespRead s = .next (settled { served s with
      bus := { (served s).bus with
        driven := true
        data := if s.fk.respPage then 0x8000 ||| s.fk.resp1.setWidth 16 else s.fk.resp0.setWidth 16 }
      fk := { s.fk with respPage := !s.fk.respPage } }))

/-- What stands at the pins and in the port's registers. Without EXTEST D is driven in a served read only; where SYS does not
run or VDDIO is absent INT# and ALERT# are released; an output of Table 03-4 is undriven without VDDIO and in LOCKUP, low in the
power-fail sequence, LIVE low and GLDE by its pull-down in reset; a bridge has eight eighths of the amplitude, in a trapezoid
after eight mt. With EXTEST the PRELOAD stage drives LIVE. The boundary-scan register has 60 cells, D[0] first; a cycle of TCK
captures it, or the IDCODE 2481_6C57h, or 0 in the bypass bit, where a gated instruction reaches its register only in a session,
shifts it towards TDO, and loads the PRELOAD stage at Update-DR (the cells' values: log entry 46; TCK: log entry 42). -/
def Obligations.OutputPins : Prop :=
  (∀ s : State, busLive s = false → extest s = false →
    pinsD s = none ∧ pinInt s = false ∧ pinAlert s = false ∧ ∀ v, pinRdy v s = .floating) ∧
  (∀ (w : Word) (s : State), extest s = false →
    pinsD (served s) = none ∧ pinsD (answer (w, s)) = if busLive s then some w else none) ∧
  (∀ (r n : Drive) (s : State),
    (s.pwr.vddio = false ∨ s.pwr.phase = .lockup ∨ s.pwr.phase = .unpowered → drivenPin r n s = .floating) ∧
    (s.pwr.vddio = true → s.pwr.phase = .powerFail → drivenPin r n s = .level false) ∧
    (s.pwr.vddio = true → s.pwr.phase = .reset → drivenPin r n s = r) ∧
    (busLive s = true → drivenPin r n s = n)) ∧
  (∀ (v : PinLevels) (s : State),
    (extest s = false →
      pinLive s = drivenPin (.level false) (.level s.sys.live) s ∧
      pinGlde v s = drivenPin .pulledLow (.level v.glde) s) ∧
    (s.port.isOpen = true → s.port.ir = 0 →
      pinLive s = if bitOf s.port.preload 51 then .level (bitOf s.port.preload 50) else .floating)) ∧
  (∀ (k : Chan) (s : State),
    ((s.fe.ch.get k).drv = false ∨ sysLive s = false ∨ s.fe.gen = false → pinsExc k s = none) ∧
    (sysLive s = true → (s.fe.ch.get k).drv = true → s.fe.gen = true → (s.fe.mode ≠ 1 ∨ 8 ≤ s.fe.phase) →
      pinsExc k s = some (if s.fe.pol then 8 else -8))) ∧
  (∀ (v : PinLevels) (s : State), (boundaryList v s).length = 60 ∧ (boundaryList v s)[0]? = some (bitOf v.d 0) ∧
    ∀ k < 60, (boundaryList v s)[k]? = some (bitOf (boundaryCells v s) k)) ∧
  (∀ (c : TckCycle) (s u : State) (cells : Prop), u = tapCycle c s →
    (cells ↔ s.port.ir = 2 ∨ (s.port.ir = 0 ∧ s.port.isOpen = true)) →
    u.port.tap = tapNext c.tms s.port.tap ∧
    (s.port.tap = .captureDr →
      (cells → u.port.cells = boundaryCells c.pins s) ∧ (s.port.ir = 1 → u.port.idShift = 0x24816C57) ∧
      (s.port.isOpen = false → s.port.ir ≠ 1 → s.port.ir ≠ 2 →
        u.port.bypass = false ∧ u.port.cells = s.port.cells)) ∧
    (s.port.tap = .shiftDr → cells →
      u.port.cells = setBit (s.port.cells >>> 1) 59 c.tdi ∧ tdoBit s.port = some (bitOf s.port.cells 0)) ∧
    (s.port.tap = .shiftDr → s.port.isOpen = false → s.port.ir ≠ 1 → s.port.ir ≠ 2 →
      u.port.bypass = c.tdi ∧ tdoBit s.port = some s.port.bypass) ∧
    (s.port.tap = .exit1Dr ∨ s.port.tap = .exit2Dr → c.tms = true → cells → u.port.preload = s.port.cells) ∧
    (s.port.tap = .captureIr → u.port.irShift = 1) ∧
    (s.port.tap = .shiftIr → u.port.irShift = setBit (s.port.irShift >>> 1) 7 c.tdi ∧
      tdoBit s.port = some (bitOf s.port.irShift 0)) ∧
    (s.port.tap = .exit1Ir ∨ s.port.tap = .exit2Ir → c.tms = true → u.port.ir = s.port.irShift))

/-! ## The key store -/

/-- KEYST: a data word is staged; a malformed command raises event 353h; on slots 0 to 2 a command outside MAKEREADY raises
event 024h, during closing 014h; LOAD opens the data phase; COMMIT and ERASE write HOST at once, and slots 0 to 2 once the
increment has committed, with events 351h and 352h; READ opens the read phase of HOST; code 60h for each change of LINK, oldest
first, under the key of that change (log entries 41 and 17). -/
def Obligations.KeyCommands : Prop :=
  (∀ (w : Word) (s : State), busLive s = true → s.key.dph = true →
    exec (.keyDataWord w) s = .next (settled { served s with key := { s.key with
      stage := s.key.stage ++ [w]
      dph := decide (s.key.stage.length + 1 < slotWords s.key.stageSlot.toNat) } })) ∧
  (∀ (w : Word) (slot : Nat) (s s1 : State), busLive s = true → s.key.dph = false → slot = fieldOf w 0 4 →
    s1 = { served s with key := { s.key with rph := false, readPos := 0 } } →
    ((fieldOf w 4 8 ≠ 0x96 ∨ 4 ≤ slot) →
      ∀ c ∈ [Instr.keyLoad w, .keyCommit w, .keyErase w, .keyRead w, .keyZeroize w],
        exec c s = .next (settled (raise 0x353 s1))) ∧
    (fieldOf w 4 8 = 0x96 → slot < 3 →
      ∀ c ∈ [Instr.keyLoad w, .keyCommit w, .keyErase w],
        (inMakeready s = false → exec c s = .next (settled (raise 0x24 s1))) ∧
        (inMakeready s = true → isClosing s = true → exec c s = .next (settled (raise 0x14 s1)))) ∧
    (fieldOf w 4 8 = 0x96 → slot < 4 → (slot < 3 → inMakeready s = true ∧ isClosing s = false) →
      (s.key.op.isSome = true →
        ∀ c ∈ [Instr.keyLoad w, .keyCommit w, .keyErase w], exec c s = .next (settled (raise 0x353 s1))) ∧
      (s.key.op = none → exec (.keyLoad w) s = .next (settled { s1 with key := { s1.key with
        stage := [], dph := true, slot := BitVec.ofNat 3 slot, stageSlot := BitVec.ofNat 3 slot } })) ∧
      ((s.key.stageSlot.toNat ≠ slot ∨ s.key.stage.length < slotWords slot ∨ (∀ x ∈ s.key.stage, x = 0) ∨
          s.key.clear = true) →
        exec (.keyCommit w) s = .next (settled (raise 0x353 s1))) ∧
      (∀ (c : Instr) (ws : Option (List Word)), s.key.op = none →
        ((c = .keyCommit w ∧ ws = some (s.key.stage.take (slotWords slot)) ∧ s.key.stageSlot.toNat = slot ∧
            slotWords slot ≤ s.key.stage.length ∧ (∃ x ∈ s.key.stage, x ≠ 0) ∧ s.key.clear = false) ∨
          (c = .keyErase w ∧ ws = none)) →
        (slot = 3 →
          exec c s = .next (settled (raise (if ws.isSome then 0x351 else 0x352) { s1 with key := { s1.key with
            host := slotValue 256 (ws.getD []), pres := setBit s.key.pres 3 ws.isSome } }))) ∧
        (slot < 3 → legalRoom (if slot = 1 then 1 else 0) s = false →
          exec c s = .next (settled (raise 0x14 s1))) ∧
        (slot < 3 → legalRoom (if slot = 1 then 1 else 0) s = true →
          ∃ u, exec c s = .next (settled u) ∧ u = { s1 with ev := u.ev, imp := u.imp, sl := u.sl, key := u.key } ∧
            u.key = { s1.key with op := some (BitVec.ofNat 3 slot, ws) } ∧ u.sl.incr ≠ .none))) ∧
    (fieldOf w 4 8 = 0x96 → slot < 3 → exec (.keyRead w) s = .next (settled (raise 0x353 s1))) ∧
    (fieldOf w 4 8 = 0x96 → slot = 3 →
      exec (.keyRead w) s = .next (settled { s1 with key := { s1.key with rph := true, slot := 3 } }))) ∧
  (∀ (slot : BitVec 3) (ws : Option (List Word)) (s : State), sysLive s = true → s.key.op = some (slot, ws) →
    (s.sl.incr ≠ .done → exec .keySlotWritten s = .next (settled s)) ∧
    (s.sl.incr = .done → s.key.clear = false →
      (slot = 0 → exec .keySlotWritten s =
        .next (settled (raise (if ws.isSome then 0x351 else 0x352) { s with key := { s.key with
          sign := slotValue 256 (ws.getD []), pres := setBit s.key.pres 0 ws.isSome, op := none } }))) ∧
      (slot = 1 → exec .keySlotWritten s =
        .next (settled (raise (if ws.isSome then 0x351 else 0x352) { s with key := { s.key with
          link := slotValue 128 (ws.getD []), pres := setBit s.key.pres 1 ws.isSome, op := none
          check := s.key.check ++ [ws.map (slotValue 128)] } }))) ∧
      (slot = 2 → exec .keySlotWritten s =
        .next (settled (raise (if ws.isSome then 0x351 else 0x352) { s with key := { s.key with
          ver := slotValue 256 (ws.getD []), pres := setBit s.key.pres 2 ws.isSome, op := none
          void := s.key.void || ws.isNone } }))))) ∧
  (∀ s : State, busLive s = true →
    (s.key.rph = true →
      exec .keyHostRead s = .next (settled { served s with
        bus := { (served s).bus with driven := true, data := (s.key.host >>> (240 - 16 * s.key.readPos)).setWidth 16 }
        key := { s.key with
          rph := decide (s.key.readPos < 15), readPos := if s.key.readPos < 15 then s.key.readPos + 1 else 0 } })) ∧
    (s.key.rph = false →
      exec .keyHostRead s = .next (settled { served s with
        bus := { (served s).bus with driven := true, data := keystWord s } }))) ∧
  (∀ s : State, placesFree s.key.check.length s = false → exec .linkCheckValue s = .next (settled s)) ∧
  (∀ s : State, sysLive s = true → nextPosition s + s.key.check.length < 4029 →
    placesFree s.key.check.length s = true →
    ∃ u, exec .linkCheckValue s = .next (settled u) ∧
      u = { s with
        key := { s.key with check := [] }, imp := { s.imp with queue := u.imp.queue, heldSteps := u.imp.heldSteps } } ∧
      u.imp.queue ++ u.imp.heldSteps = s.imp.queue ++ s.imp.heldSteps ++ s.key.check.map fun key =>
        nowEntry 0x60 (match key with
          | some k => BitVec.ofNat 32 (0x01000000 +
              ofBe ((aes128 (beBytes 16 k.toNat) (List.replicate 16 0)).take 2))
          | none => 0x02000000) s)

/-- A zeroize by command or by an opening of the composing port clears every slot, the hash and cipher unit and the latched link
key, sets the void flag and ZOUT, and queues code 33h with its cause, at any position below 4,096; the port opens once code 38h
has committed, with event 354h; without room for it, which is at position 4,095, beyond it, or with 28 entries queued, the port
stays closed, with REF and event 355h. A gated instruction in reset clears the store and logs both codes in the backup buffer.
TEST acts as a gated opening, whose code 38h carries the instruction then in the register (the model's reading: log entry 57); a
free instruction ends the session; entries of earlier openings that are still queued open nothing (log entries 41 and 42). -/
def Obligations.ZeroizeAndComposingPort : Prop :=
  (∀ (c : Instr) (cause : Nat) (w : Word) (ir : Byte) (e33 e38 : Entry) (s : State), busLive s = true →
    s.key.clear = false → isClosing s = false →
    e33 = nowEntry 0x33 (BitVec.ofNat 32 (cause * 2 ^ 24 + 2 ^ 23 * flag (decide (s.key.pres = 0)))) s →
    e38 = nowEntry 0x38 (BitVec.ofNat 32 (ir.toNat * 2 ^ 24 + 2 ^ 23 * flag (decide (cause = 0x22)))) s →
    ((c = .keyZeroize w ∧ cause = 0x20 ∧ s.key.dph = false ∧ fieldOf w 4 8 = 0x96 ∧ fieldOf w 0 4 < 4) ∨
      (s.port.isOpen = false ∧ s.port.pend = false ∧
        ((c = .composingPortRequest ir ∧ cause = 0x21 ∧ isGated ir = true) ∨
          (c = .testPinHigh ∧ cause = 0x22 ∧ ir = s.port.ir)))) →
    ∃ u, exec c s = .next (settled u) ∧ u.key.sign = 0 ∧ u.key.link = 0 ∧ u.key.ver = 0 ∧ u.key.host = 0 ∧
      u.key.pres = 0 ∧ u.key.void = true ∧ u.key.clear = true ∧ u.key.stage = [] ∧ u.key.dph = false ∧
      (∀ slot ws, u.key.op ≠ some (slot, some ws)) ∧ u.fk.zout = true ∧ u.fk.pulseAlert = true ∧
      u.nv = s.nv ∧ u.fe = s.fe ∧ u.gl = { s.gl with key := 0, keyCut := true } ∧ u.sh.signKey = 0 ∧
      u.sh.busy = false ∧ (s.sh.busy = true → u.sh.ref = true ∧ isSticky 0x377 u = true) ∧
      (cause = 0x20 → u.port = s.port) ∧
      (cause = 0x20 → nextPosition s < 4096 → s.imp.queue.length < 28 →
        u.imp = { s.imp with queue := s.imp.queue ++ [e33] }) ∧
      (cause ≠ 0x20 → u.port.ir = ir ∧ u.port.isOpen = false ∧ u.port.test = (s.port.test || decide (cause = 0x22))) ∧
      (cause ≠ 0x20 → nextPosition s < 4095 → s.imp.queue.length < 27 →
        u.port.pend = true ∧ u.port.logged = false ∧
        u.port.ahead = ((s.imp.queue ++ s.imp.heldSteps).filter fun e => decide (e.code = 0x38)).length ∧
        u.imp = { s.imp with queue := s.imp.queue ++ [e33, e38] }) ∧
      (cause ≠ 0x20 → nextPosition s < 4096 → s.imp.queue.length < 28 →
        nextPosition s = 4095 ∨ s.imp.queue.length = 27 →
        u.port.pend = false ∧ u.port.ref = true ∧ isSticky 0x355 u = true ∧
        u.imp = { s.imp with queue := s.imp.queue ++ [e33] }) ∧
      (cause ≠ 0x20 → 4096 ≤ nextPosition s ∨ 28 ≤ s.imp.queue.length →
        u.port.pend = false ∧ u.port.ref = true ∧ isSticky 0x355 u = true ∧ u.imp = s.imp)) ∧
  (∀ (ir : Byte) (s : State), s.pwr.phase = .reset → s.pwr.vddio = true → isGated ir = true → s.key.clear = false →
    s.port.isOpen = false → s.port.pend = false → isClosing s = false → s.bkp.buffer.length ≤ 13 →
    ∃ u, exec (.composingPortRequest ir) s = .next (settled u) ∧ u.key = clearedKeys s.key ∧
      u.port = { s.port with ir := ir, irShift := ir, tap := .updateIr } ∧
      u.bkp.buffer = s.bkp.buffer ++ [
        nowEntry 0x33 (BitVec.ofNat 32 (0x21000000 + 2 ^ 23 * flag (decide (s.key.pres = 0)))) s,
        nowEntry 0x38 (BitVec.ofNat 32 (ir.toNat * 2 ^ 24)) s]) ∧
  (∀ (ir : Byte) (s : State), portLive s = true →
    (∀ (scan : List TckCycle) (t : State), t = forAll scan tapCycle s →
      (isGated ir = false →
        exec (.tapInstructionUpdate { scan := scan, reached := .updateIr ir }) s =
          .next (settled { t with port := { t.port with
            ir := ir, irShift := ir, tap := .updateIr, isOpen := false, pend := false, logged := false, ahead := 0 } })) ∧
      exec (.tapInstructionUpdate { scan := scan, reached := .testLogicReset }) s =
        .next (settled { t with port := { t.port with
          ir := 1, tap := .testLogicReset, isOpen := false, pend := false, logged := false, ahead := 0 } })) ∧
    (isGated ir = true → (s.port.isOpen = true ∨ s.port.pend = true) →
      exec (.composingPortRequest ir) s =
        .next (settled { s with port := { s.port with ir := ir, irShift := ir, tap := .updateIr } }))) ∧
  (∀ s : State, sysLive s = true →
    (s.port.pend = true → s.port.logged = true →
      exec .composingPortOpened s = .next (settled (raise 0x354 { s with port := { s.port with
        isOpen := true, pend := false, logged := false, factory := s.port.factory || s.port.test } }))) ∧
    (s.port.pend = false ∨ s.port.logged = false → exec .composingPortOpened s = .next (settled s)) ∧
    (s.port.isOpen = true →
      exec .testPinHigh s =
        .next (settled { s with port := { s.port with test := true, factory := true } })))

/-! ## Nonvolatile memory -/

/-- NVCTL: COMMIT is refused by the first failing check of Table 12-3 with its event, in partition L as elsewhere, else the
buffer becomes the pending host operation; DISCARD empties the buffer; SSTORE begins a shadow store, or event 366h; SLUGW opens
a data phase whose fourth word requests the ring write, or event 381h; SLUGR snapshots a ring, whose six words the reads return.
In the st of PFAIL a commit on a bus with VDDIO is not performed and is counted (log entries 29, 30 and 48). Where neither bank
is valid SSTORE takes bank A and number 1 (the model's choice: log entry 57). -/
def Obligations.NvCommands : Prop :=
  (∀ (w : Word) (s s1 : State), busLive s = true → s.nv.dph = false →
    s1 = { served s with nv := { s.nv with readWords := none, cnt := 0 } } →
    (s.nv.bufPage = none → exec (.nvCommit w) s = .next (settled (raise 0x36C s1))) ∧
    (∀ b, s.nv.bufPage = some b →
      (768 ≤ b.toNat → exec (.nvCommit w) s = .next (settled (raise 0x365 s1))) ∧
      (inL b.toNat = true → inMakeready s = false →
        exec (.nvCommit w) s = .next (settled (raise 0x362 s1))) ∧
      (inL b.toNat = true → inMakeready s = true → (isClosing s = true ∨ legalRoom 1 s = false) →
        exec (.nvCommit w) s = .next (settled (raise 0x14 s1))) ∧
      (b.toNat < 512 → isProtected s.nv.bp b.toNat = true →
        exec (.nvCommit w) s = .next (settled (raise 0x363 s1))) ∧
      (b.toNat < 512 → isProtected s.nv.bp b.toNat = false →
        exec (.nvCommit w) s = .next (settled
          (if s.nv.host ≠ none ∨ s.nv.legal ≠ [] ∨ commandStore s = true then raise 0x366 s1
           else { s1 with nv := { s1.nv with
             host := some (.page b.toNat s.nv.bufWords), bufPage := none, bufWords := [] } }))) ∧
      (inL b.toNat = true → inMakeready s = true → isClosing s = false → legalRoom 1 s = true →
        s.nv.host ≠ none ∨ s.nv.legal ≠ [] ∨ commandStore s = true →
        exec (.nvCommit w) s = .next (settled (raise 0x366 s1))) ∧
      (inL b.toNat = true → inMakeready s = true → isClosing s = false → legalRoom 1 s = true → s.nv.host = none →
        s.nv.legal = [] → commandStore s = false →
        ∃ u, exec (.nvCommit w) s = .next (settled u) ∧ u.sl.incr ≠ .none ∧ u.nv = { s1.nv with
          host := some (.page b.toNat s.nv.bufWords), bufPage := none, bufWords := [] })) ∧
    exec (.nvDiscard w) s = .next (settled { s1 with nv := { s1.nv with bufPage := none, bufWords := [] } }) ∧
    (nvIdle s = false → exec (.shadowStoreCommand w) s = .next (settled (raise 0x366 s1))) ∧
    (nvIdle s = true →
      exec (.shadowStoreCommand w) s = .next (settled { s1 with nv := { s1.nv with
        running := some (match bestBank s.sh with
          | some (bankB, bank) => .store true (!bankB) s.sh.sram (bank.number + 1)
          | none => .store true false s.sh.sram 1) } })) ∧
    exec (.slugWrite w) s = .next (settled { s1 with nv := { s1.nv with
      dph := true, slugWords := [], pring := BitVec.ofNat 6 (fieldOf w 6 6) } }) ∧
    (∀ r : Fin 64, r.val = fieldOf w 6 6 →
      (s.nv.ring.get r = none → exec (.slugRead w) s = .next (settled (raise 0x382 { s1 with nv := { s1.nv with
        readWords := some [0, 0, 0, 0, 0, 0], pring := BitVec.ofNat 6 r.val } }))) ∧
      (∀ c, s.nv.ring.get r = some c → exec (.slugRead w) s = .next (settled { s1 with nv := { s1.nv with
        readWords := some [c.value.setWidth 16, (c.value >>> 16).setWidth 16, (c.value >>> 32).setWidth 16,
          (c.value >>> 48).setWidth 16, c.seq.setWidth 16, (c.seq >>> 16).setWidth 16]
        pring := BitVec.ofNat 6 r.val } })))) ∧
  (∀ (v a b c : Word) (r : Fin 64) (s : State), busLive s = true → s.nv.dph = true → r.val = s.nv.pring.toNat →
    (s.nv.slugWords.length < 3 →
      exec (.slugDataWord v) s = .next (settled { served s with nv := { s.nv with
        slugWords := s.nv.slugWords ++ [v], cnt := s.nv.slugWords.length + 1 } })) ∧
    (s.nv.slugWords = [a, b, c] →
      (r.val < 2 ∨ s.nv.host ≠ none ∨ s.nv.legal ≠ [] ∨ nextSlot r s = none →
        exec (.slugDataWord v) s = .next (settled (raise 0x381 { served s with nv := { s.nv with
          dph := false, slugWords := [], cnt := 0 } }))) ∧
      (2 ≤ r.val → s.nv.host = none → s.nv.legal = [] → nextSlot r s ≠ none →
        exec (.slugDataWord v) s = .next (settled { served s with nv := { s.nv with
          dph := false, slugWords := [], cnt := 0, host := some (.ring r (v ++ (c ++ (b ++ a)))) } })))) ∧
  (∀ s : State, busLive s = true →
    (∀ w rest, s.nv.readWords = some (w :: rest) →
      exec .slugReadWord s = .next (settled { served s with
        bus := { (served s).bus with driven := true, data := w }
        nv := { s.nv with
          readWords := if rest = [] then none else some rest, cnt := if rest = [] then 0 else s.nv.cnt + 1 } })) ∧
    (s.nv.readWords = none →
      exec .slugReadWord s = .next (settled { served s with
        bus := { (served s).bus with driven := true, data := nvctlWord s } }))) ∧
  (∀ (w : Word) (s : State), s.mark = .pfail → s.pwr.phase = .powerFail → s.pwr.vddio = true → s.nv.dph = false →
    ∀ c ∈ [Instr.nvCommit w, .shadowStoreCommand w, .slugWrite w],
      exec c s = .next (settled { s with pwr := { s.pwr with pfDiscarded := s.pwr.pfDiscarded + 1 } }))

/-- The end of an array operation: a host page holds the loaded words and its other bytes, with event 360h and, in partition
L, code 20h; behind it a held reset reports the event at its release; a page of a legal store holds its bytes; a ring write
makes its slot current with event 380h; log entries stand at their positions, in their order, the last position with EXH and
event 392h; a committed code 23h requests ring 0, code 11h of a closing requests ring 1, the session's own code 38h lets the
port open; a marker; ring 0 completes the increment, ring 1 records the closing; a refresh rewrites a page as corrected with
event 36Ah. Refresh falls due in RUN and examines one page (log entries 17 and 47). -/
def Obligations.ArrayOperationEnds : Prop :=
  (∀ s : State, sysLive s = true → s.pwr.heldReset = none → MemoryGood s →
    (∀ p ws, s.nv.running = some (.hostPage p ws) → p < 768 → (∀ i w, (i, w) ∈ ws → i < 32) →
      (∀ i w w', (i, w) ∈ ws → (i, w') ∈ ws → w = w') →
      ∃ u, exec .arrayOperationDone s = .next (settled u) ∧ u = { s with ev := u.ev, nv := u.nv, imp := u.imp } ∧
        u.nv.running = none ∧ isSticky 0x360 u = true ∧
        (∀ i w, (i, w) ∈ ws → nvStored u (32 * p + i) = w) ∧
        (∀ x, (∀ i w, (i, w) ∈ ws → x ≠ 32 * p + i) → nvStored u x = nvStored s x) ∧
        (p < 512 → u.imp = s.imp) ∧
        (512 ≤ p → nextPosition s < 4030 →
          u.imp = { s.imp with queue := u.imp.queue, heldSteps := u.imp.heldSteps } ∧
          u.imp.queue ++ u.imp.heldSteps = s.imp.queue ++ s.imp.heldSteps ++
            [nowEntry 0x20 (BitVec.ofNat 32 (p * 65536 + (pageCrc p u).toNat)) s])) ∧
    (∀ p bs, s.nv.running = some (.legalPage p bs) → 512 ≤ p → p < 768 → bs.length = 64 →
      ∃ u, exec .arrayOperationDone s = .next (settled u) ∧
        u = { s with nv := { s.nv with running := none, mem := u.nv.mem, flaws := u.nv.flaws } } ∧
        nvBytes u (64 * p) 64 = bs ∧ ∀ a, (a < 64 * p ∨ 64 * p + 64 ≤ a) → nvByte u a = nvByte s a) ∧
    (∀ r v j seq, s.nv.running = some (.hostRing r v) → nextSlot r s = some (j, seq) →
      ∃ u, exec .arrayOperationDone s = .next (settled u) ∧ u = { s with ev := u.ev, nv := u.nv } ∧
        u.nv.running = none ∧ isSticky 0x380 u = true ∧
        u.nv.ring.get r = some { slot := j, seq := seq, value := v } ∧
        (∀ q, q ≠ r → u.nv.ring.get q = s.nv.ring.get q) ∧
        nvBytes u (slotAddr r j) 16 = slotBytes r v seq ∧
        ∀ a, (a < slotAddr r j ∨ slotAddr r j + 16 ≤ a) → nvByte u a = nvByte s a) ∧
    (∀ first n es, s.nv.running = some (.imprint first n) → es = (s.imp.queue.drop first).take n → es.length = n →
      1 ≤ n → s.imp.next + n ≤ 4096 → (∀ i < 16 * n, nvByte s (0x10000 + 16 * s.imp.next + i) = 0xFF) →
      ∃ u, exec .arrayOperationDone s = .next (settled u) ∧
        u = { s with ev := u.ev, nv := u.nv, imp := u.imp, sl := u.sl, port := u.port } ∧ u.nv.running = none ∧
        (s.imp.next + n < 4096 → u.ev = s.ev ∧ bitOf (impstWord u) 13 = false) ∧
        (s.imp.next + n = 4096 → isSticky 0x392 u = true ∧ bitOf (impstWord u) 13 = true) ∧
        u.imp.queue = s.imp.queue.take first ++ s.imp.queue.drop (first + n) ∧
        u.imp.heldSteps = s.imp.heldSteps ∧ u.imp.next = s.imp.next + n ∧
        (∀ i e, es[i]? = some e → nvBytes u (0x10000 + 16 * (s.imp.next + i)) 16 = entryBytes (s.imp.next + i) e) ∧
        (∀ a, (a < 0x10000 + 16 * s.imp.next ∨ 0x10000 + 16 * (s.imp.next + n) ≤ a) → nvByte u a = nvByte s a) ∧
        ((∀ e ∈ es, e.code ≠ 0x23 ∧ e.code ≠ 0x11 ∧ e.code ≠ 0x38) →
          u.sl = s.sl ∧ u.port = s.port ∧ u.nv.sealQueue = s.nv.sealQueue) ∧
        (∀ e c, es = [e] → e.code = 0x23 → s.sl.incr = .logging c → u.sl = { s.sl with incr := .ringing c } ∧
          u.nv.sealQueue = s.nv.sealQueue ++ [(0, c.setWidth 64, .increment)]) ∧
        (∀ e, es = [e] → e.code = 0x11 → s.sl.closing = .logging → u.sl = { s.sl with closing := .recording } ∧
          u.nv.sealQueue = s.nv.sealQueue ++
            [(1, ({ sealRecord s with isOpen := false, voids := false } : SealRecord).value, .closeSession)]) ∧
        (∀ e, es = [e] → e.code = 0x38 → u.sl = s.sl ∧
          (s.port.pend = false → u.port = s.port) ∧
          (s.port.pend = true → s.port.ahead = 0 → u.port = { s.port with logged := true }) ∧
          (s.port.pend = true → s.port.ahead ≠ 0 → u.port = { s.port with ahead := s.port.ahead - 1 }))) ∧
    (∀ c, s.nv.running = some (.marker c) → (c = 0x50 ∧ s.imp.next = 3968) ∨ (c = 0x51 ∧ s.imp.next = 4031) →
      (∀ i < 16, nvByte s (0x10000 + 16 * s.imp.next + i) = 0xFF) →
      ∃ u, exec .arrayOperationDone s = .next (settled u) ∧ u = { s with ev := u.ev, nv := u.nv, imp := u.imp } ∧
        u.nv.running = none ∧ u.imp.queue = s.imp.queue ∧ u.imp.next = s.imp.next + 1 ∧
        isSticky (if c = 0x50 then 0x390 else 0x391) u = true ∧
        nvBytes u (0x10000 + 16 * s.imp.next) 16 =
          entryBytes s.imp.next (nowEntry c (BitVec.ofNat 32 s.imp.next) s)) ∧
    (∀ v c j seq, s.nv.running = some (.sealRing 0 v .increment) → s.sl.incr = .ringing c →
      nextSlot 0 s = some (j, seq) → s.sl.deferred = [] →
      ∃ u, exec .arrayOperationDone s = .next (settled u) ∧ u = { s with nv := u.nv, sl := u.sl } ∧
        u.nv.running = none ∧ ringValue 0 u = v ∧ u.sl = { s.sl with incr := .done, counter := c }) ∧
    (∀ v j seq, s.nv.running = some (.sealRing 1 v .closeSession) → nextSlot 1 s = some (j, seq) →
      ∃ u, exec .arrayOperationDone s = .next (settled u) ∧ u = { s with nv := u.nv, sl := u.sl } ∧
        u.nv.running = none ∧ ringValue 1 u = v ∧ u.sl = { s.sl with closing := .recorded }) ∧
    (∀ p, s.nv.running = some (.refresh p) → p < 2048 →
      ∃ u, exec .arrayOperationDone s = .next (settled u) ∧ u = { s with ev := u.ev, nv := u.nv } ∧
        u.nv.running = none ∧ isSticky 0x36A u = true ∧
        (1024 ≤ p → u.nv = { s.nv with running := none }) ∧
        (p < 1024 → (∀ i < 32, nvStored u (32 * p + i) = (nvRead s (32 * p + i)).1 ∧
            (nvRead u (32 * p + i)).2 = 0) ∧
          ∀ x, (x < 32 * p ∨ 32 * p + 32 ≤ x) → nvRead u x = nvRead s x))) ∧
  (∀ (cause : BitVec 3) (p : Nat) (ws : List (Nat × Word)) (s : State), sysLive s = true →
    s.pwr.heldReset = some cause → s.nv.running = some (.hostPage p ws) →
    ∃ u, exec .arrayOperationDone s = .next (settled u) ∧ u.nv.running = none ∧ u.pwr.heldReset = some cause ∧
      u.pwr.releaseEvents = s.pwr.releaseEvents ++ [0x360]) ∧
  (∀ (m : MarginReading) (s : State),
    (s.pwr.phase = .run → exec (.refreshPage m) s = .next (settled { s with
      nv := { s.nv with refresh := some m }, bkp := { s.bkp with refreshTicks := 0 } })) ∧
    (s.pwr.phase ≠ .run → exec (.refreshPage m) s = .next (settled s))) ∧
  (∀ (m : MarginReading) (s u : State), sysLive s = true → u = examinePage m s →
    u = { s with ev := u.ev, nv := u.nv, bkp := u.bkp } ∧
    u.bkp = { s.bkp with refreshPage := if 2047 ≤ s.bkp.refreshPage then 0 else s.bkp.refreshPage + 1 } ∧
    (2047 ≤ s.bkp.refreshPage → isSticky 0x36D u = true) ∧
    (pageState s.bkp.refreshPage s = 2 → u.nv = s.nv ∧ isSticky 0x36B u = true) ∧
    (pageState s.bkp.refreshPage s ≠ 2 → u.nv = (if m.weak ∨ pageState s.bkp.refreshPage s = 1
      then { s.nv with running := some (.refresh s.bkp.refreshPage) } else s.nv)))

/-- Transactions: OPEN copies the region with event 373h; CLOSE merges the copy with event 374h; a signed CLOSE waits while a
legal digest is due on the core (R407), computes the MAC over bytes 0 to 479 and raises 374h and 375h, or is refused with 377h
for want of the key; ABORT discards the copy with DISC and event 375h; a command out of place is refused with REF and event
376h. -/
def Obligations.Transactions : Prop :=
  (∀ (w : Word) (base : Nat) (s s1 : State), busLive s = true → bitOf w 15 = false → bitOf w 14 = false →
    bitOf w 13 = false → base = (if s.sh.staging = none then fieldOf w 0 3 else s.sh.base.toNat) →
    s1 = { served s with sh := { s.sh with
      disc := s.sh.disc && !bitOf w 9, ref := s.sh.ref && !bitOf w 8, sign := bitOf w 12
      base := BitVec.ofNat 3 base } } →
    (s.sh.busy = true ∨ s.sh.staging ≠ none →
      exec (.txnOpen w) s = .next (settled (raise 0x376 { s1 with sh := { s1.sh with ref := true } }))) ∧
    (s.sh.busy = false → s.sh.staging = none →
      exec (.txnOpen w) s = .next (settled (raise 0x373 { s1 with sh := { s1.sh with
        staging := some (cellRange 0 s.sh.sram (512 * base) 512) } }))) ∧
    ((s.sh.busy = true ∨ s.sh.staging = none) →
      exec (.txnAbort w) s = .next (settled (raise 0x376 { s1 with sh := { s1.sh with ref := true } })) ∧
      exec (.txnClose w) s = .next (settled (raise 0x376 { s1 with sh := { s1.sh with
        ref := true, sign := false } }))) ∧
    (∀ bs, s.sh.busy = false → s.sh.staging = some bs →
      exec (.txnAbort w) s = .next (settled (raise 0x375 { s1 with sh := { s1.sh with
        staging := none, disc := true } })) ∧
      (bitOf s.key.pres 0 = true →
        exec (.txnSignedClose w) s = .next (settled { s1 with sh := { s1.sh with
          sign := true, busy := true, started := !digestDue s1, closeBit := true, signKey := s.key.sign } })) ∧
      (bitOf s.key.pres 0 = false →
        exec (.txnSignedClose w) s = .next (settled (raise 0x377 { s1 with sh := { s1.sh with
          sign := true, ref := true } }))) ∧
      (MemoryGood s → bs.length = 512 →
        ∃ u, exec (.txnClose w) s = .next (settled u) ∧
          u = { s1 with ev := u.ev, sh := { s1.sh with sign := false, staging := none, sram := u.sh.sram } } ∧
          isSticky 0x374 u = true ∧
          ∀ b, shadowByte u b = (if 512 * base ≤ b ∧ b < 512 * base + 512 then bs.getD (b - 512 * base) 0
            else shadowByte s b)))) ∧
  (∀ (w : Word) (s : State), busLive s = true → (bitOf w 15 = true ∧ (bitOf w 14 = true ∨ bitOf w 13 = true)) →
    ∃ u, exec (.txnOpen w) s = .next (settled u) ∧ u.sh.ref = true ∧ isSticky 0x376 u = true ∧
      u.sh.staging = s.sh.staging ∧ u.sh.sram = s.sh.sram ∧ u.sh.busy = s.sh.busy) ∧
  (∀ s : State, s.sh.started = false → digestDue s = true → exec .txnSignDone s = .next (settled s)) ∧
  (∀ (bs : List Byte) (s : State), sysLive s = true → s.sh.busy = true → s.sh.staging = some bs →
    (s.sh.started = true ∨ digestDue s = false) → MemoryGood s → bs.length = 512 →
    ∃ u, exec .txnSignDone s = .next (settled u) ∧
      u = { s with ev := u.ev, sh := { s.sh with
        busy := false, started := false, closeBit := false, staging := none, sram := u.sh.sram } } ∧
      isSticky 0x374 u = true ∧ isSticky 0x375 u = true ∧
      ∀ b, shadowByte u b = (if 512 * s.sh.base.toNat ≤ b ∧ b < 512 * s.sh.base.toNat + 512
        then (bs.take 480 ++ beBytes 32 (hmacSha256 s.sh.signKey (bs.take 480)).toNat).getD
          (b - 512 * s.sh.base.toNat) 0
        else shadowByte s b))

/-! ## The Imprint check and the clock -/

/-- VERIFY checks the positions below NEXT as it stood: event 394h, or VERR with the lowest bad position and event 395h. A
second of the RTC, lost in the st of a set of it (log entry 48); on an empty queue 1/256 s of the RTC passes, which ends the
work of the engine that a write began (the model's own tick: log entries 2, 47 and 54). RTCL and RTCH are staged, RTCF sets the
clock with event 3A0h and code 40h and restamps a lockout (log entry 40); a read of RTCL snapshots RTCH and the fraction. -/
def Obligations.ImprintCheckAndClock : Prop :=
  (∀ (w : Word) (s : State), busLive s = true →
    exec (.imprintVerify w) s = .next (settled { served s with imp := { s.imp with
      verify := some (s.imp.verify.getD s.imp.next) } })) ∧
  (∀ (n : Nat) (s : State), sysLive s = true → s.imp.verify = some n →
    ((∀ i < n, entryBad s i = false) →
      exec .imprintVerifyDone s = .next (settled (raise 0x394 { s with imp := { s.imp with
        verify := none, verr := false, first := 0x1FFF } }))) ∧
    (∀ f < n, entryBad s f = true → (∀ i < f, entryBad s i = false) →
      exec .imprintVerifyDone s = .next (settled (raise 0x395 { s with imp := { s.imp with
        verify := none, verr := true, first := BitVec.ofNat 13 f } })))) ∧
  (∀ s : State, s.pwr.phase ≠ .unpowered →
    (setsRtc s.mark = true → exec .rtcSecond s = .next (settled s)) ∧
    (setsRtc s.mark = false → exec .rtcSecond s = .next (settled { s with bkp := { s.bkp with
      sec := s.bkp.sec + 1, frac := 0
      refreshTicks := if s.pwr.phase = .run then min 9676800 (s.bkp.refreshTicks + 128) else s.bkp.refreshTicks } }))) ∧
  (∀ s : State, s.pending = [] →
    (s.pwr.phase = .unpowered ∨ s.bkp.frac = 0xFF → step s = .next { s with mark := .none }) ∧
    (s.pwr.phase ≠ .unpowered → s.bkp.frac ≠ 0xFF →
      ∃ u, step s = .next u ∧ u.mark = .none ∧
        u.bkp = { s.bkp with
          frac := s.bkp.frac + 1
          refreshTicks := if s.pwr.phase = .run then min 9676800 (s.bkp.refreshTicks + 128) else s.bkp.refreshTicks } ∧
        (sysLive s = false → u = { s with bkp := u.bkp, mark := .none }) ∧
        (sysLive s = true →
          u = { s with
            bkp := u.bkp, mark := .none, ev := u.ev, fm := u.fm, cs := u.cs, tone := u.tone
            fe := { s.fe with armWait := 0 } } ∧
          u.cs.copy = none ∧ u.fm.load = none ∧
          (s.fm.load = none → u.ev = s.ev ∧ u.fm = s.fm) ∧
          ∀ d : DynLoad, s.fm.load = some d →
            (u.fm.ch.get d.ch).active = d.image ∧ (u.fm.ch.get d.ch).valid = !isLegal d.ch s ∧
            isSticky (0xC0 + 0x20 * d.ch.val) u = true))) ∧
  (∀ (v : Word) (s : State), busLive s = true →
    exec (.rtcStageWrite false v) s = .next (settled { served s with bkp := { s.bkp with stageL := some v } }) ∧
    exec (.rtcStageWrite true v) s = .next (settled { served s with bkp := { s.bkp with stageH := some v } }) ∧
    exec .rtcSnapshotRead s = .next (settled { served s with
      bus := { (served s).bus with driven := true, data := s.bkp.sec.setWidth 16 }
      bkp := { s.bkp with snap := some ((s.bkp.sec >>> 16).setWidth 16, s.bkp.frac) } })) ∧
  (∀ (v : Word) (s : State), busLive s = true →
    ∃ u, exec (.rtcSet v) s = .next { settled u with mark := .rtcSet } ∧
      u = { served s with ev := u.ev, bkp := u.bkp, imp := u.imp, nv := u.nv, sl := u.sl } ∧
      u.bkp = { s.bkp with
        sec := s.bkp.stageH.getD ((s.bkp.sec >>> 16).setWidth 16) ++ s.bkp.stageL.getD (s.bkp.sec.setWidth 16)
        frac := v.setWidth 8, valid := true, stageL := none, stageH := none } ∧
      isSticky 0x3A0 u = true ∧
      (nextPosition s < 4030 → s.imp.queue.length < 28 → u.imp = { s.imp with queue := s.imp.queue ++
        [{ code := 0x40, time := u.bkp.sec, frac := u.bkp.frac, data := s.bkp.sec }] }) ∧
      (lockoutHolds (latestRecord s) s.bkp.sec s = false → u.nv = s.nv) ∧
      (lockoutHolds (latestRecord s) s.bkp.sec s = true → u.nv = { s.nv with sealQueue := s.nv.sealQueue ++
        [(1, ({ latestRecord s with lkstart := u.bkp.sec } : SealRecord).value, .restamp)] }))
end

