-- ==== Sys2Proof/Laws/Keeps.lean ====
section
/-! SUPPORT. Laws/Keeps.lean: which operations leave the memories, the phase of the device and the queue of commands as they
were: one lemma for each operation of the shared files. -/

namespace Sys2Proof.Machine

/-- Nothing of the memories, the phase or the queue has changed, nor the image of a shadow store that runs. -/
@[simp] abbrev Keeps (s t : State) : Prop :=
  t.nv.mem = s.nv.mem ∧ t.sh.sram = s.sh.sram ∧ t.sh.bankA = s.sh.bankA ∧ t.sh.bankB = s.sh.bankB ∧
  t.pwr.phase = s.pwr.phase ∧ t.pending = s.pending ∧ storeImage t.nv.running = storeImage s.nv.running

theorem Keeps.trans {s t u : State} (h1 : Keeps s t) (h2 : Keeps t u) : Keeps s u := by
  simp only [Keeps] at h1 h2 ⊢
  simp [h1, h2]

@[simp] theorem when_keeps (c : Bool) (f : State → State) (s : State) (h : ∀ t, Keeps t (f t)) :
    Keeps s (when c f s) := by
  unfold when; split <;> simp [h]
@[simp] theorem onBus_keeps (f : State → State) (s : State) (h : ∀ t, Keeps t (f t)) : Keeps s (onBus f s) := by
  unfold onBus; split <;> simp [h]
theorem foldl_keeps {α : Type} (xs : List α) (f : State → α → State) (h : ∀ x t, Keeps t (f t x)) :
    ∀ s, Keeps s (xs.foldl f s) := by
  induction xs with
  | nil => simp
  | cons x xs ih => intro s; simp only [Keeps, List.foldl_cons] at *; have a := h x s; have b := ih (f s x); simp_all
@[simp] theorem forAll_keeps {α : Type} (xs : List α) (f : α → State → State) (s : State) (h : ∀ x t, Keeps t (f x t)) :
    Keeps s (forAll xs f s) := foldl_keeps xs _ (fun x t => h x t) s
@[simp] theorem nextDraw_keeps (s : State) : Keeps s (nextDraw s).2 := by simp [nextDraw]
@[simp] theorem answer_keeps (r : Word × State) : Keeps r.2 (answer r) := by simp [answer]

/-! ## Shared operations -/

@[simp] theorem modFe_keeps (k : Chan) (f : FeChan → FeChan) (s : State) : Keeps s (modFe k f s) := by
  unfold modFe; (repeat' split) <;> simp

@[simp] theorem modFm_keeps (k : Chan) (f : FmChan → FmChan) (s : State) : Keeps s (modFm k f s) := by
  unfold modFm; (repeat' split) <;> simp

@[simp] theorem modCs_keeps (k : Chan) (f : CaseChan → CaseChan) (s : State) : Keeps s (modCs k f s) := by
  unfold modCs; (repeat' split) <;> simp

@[simp] theorem modCal_keeps (k : Chan) (f : CalChan → CalChan) (s : State) : Keeps s (modCal k f s) := by
  unfold modCal; (repeat' split) <;> simp

@[simp] theorem modKern_keeps (k : Chan) (f : KernChan → KernChan) (s : State) : Keeps s (modKern k f s) := by
  unfold modKern; (repeat' split) <;> simp

@[simp] theorem modNode_keeps (a : Station) (f : NodeRec → NodeRec) (s : State) : Keeps s (modNode a f s) := by
  unfold modNode; (repeat' split) <;> simp

@[simp] theorem raise_keeps (id : Nat) (s : State) : Keeps s (raise id s) := by
  unfold raise; (repeat' split) <;> simp

@[simp] theorem detect_keeps (id : Nat) (cond : Bool) (s : State) : Keeps s (detect id cond s) := by
  simp only [detect]; split <;> simp

@[simp] theorem parityRead_keeps (i : Nat) (s : State) : Keeps s (parityRead i s) := by
  unfold parityRead; (repeat' split) <;> simp

@[simp] theorem markLegal_keeps (id : Nat) (s : State) : Keeps s (markLegal id s) := by
  unfold markLegal; (repeat' split) <;> simp

@[simp] theorem detectFault_keeps (k : Chan) (id : Nat) (cond : Bool) (s : State) :
    Keeps s (detectFault k id cond s) := by
  simp only [detectFault]; split <;> simp

@[simp] theorem post_keeps (id : Nat) (s : State) : Keeps s (post id s) := by
  unfold post; (repeat' split) <;> simp

@[simp] theorem detectBkp_keeps (id : Nat) (cond : Bool) (s : State) : Keeps s (detectBkp id cond s) := by
  simp only [detectBkp]; split <;> simp

@[simp] theorem enterQueue_keeps (e : Entry) (s : State) : Keeps s (enterQueue e s) := by
  unfold enterQueue; (repeat' split) <;> simp

@[simp] theorem admitHeld_keeps (s : State) : Keeps s (admitHeld s) := by simp [admitHeld]

@[simp] theorem queueEntry_keeps (e : Entry) (s : State) : Keeps s (queueEntry e s) := by
  unfold queueEntry; (repeat' split) <;> simp

@[simp] theorem bufferEntry_keeps (e : Entry) (s : State) : Keeps s (bufferEntry e s) := by
  unfold bufferEntry; (repeat' split) <;> simp

@[simp] theorem logEntry_keeps (e : Entry) (s : State) : Keeps s (logEntry e s) := by
  unfold logEntry; (repeat' split) <;> simp

@[simp] theorem logNow_keeps (code : Byte) (data : W32) (s : State) : Keeps s (logNow code data s) := by
  unfold logNow; (repeat' split) <;> simp

@[simp] theorem beginChange_keeps (s : State) : Keeps s (beginChange s) := by
  unfold beginChange; (repeat' split) <;> simp

@[simp] theorem rwmWrite_keeps (changes : Bool) (a : BitVec 6) (v : Word) (apply : State → State) (s : State)
    (h : ∀ t, Keeps t (apply t)) : Keeps s (rwmWrite changes a v apply s) := by
  unfold rwmWrite; (repeat' split) <;> (try dsimp only) <;> (repeat' split) <;> simp [h]

/-! ## Flags -/

@[simp] theorem noReadingCheck_keeps (k : Chan) (s : State) : Keeps s (noReadingCheck k s) := by
  simp only [noReadingCheck]; (repeat' split) <;> simp

@[simp] theorem liveCheck_keeps (s : State) : Keeps s (liveCheck s) := by
  simp only [liveCheck]; (repeat' split) <;> simp

@[simp] theorem injectionAborts_keeps (s : State) : Keeps s (injectionAborts s) := by
  simp only [injectionAborts, when]; split <;> simp

@[simp] theorem injectionCheck_keeps (s : State) : Keeps s (injectionCheck s) := by
  unfold injectionCheck; (repeat' split) <;> simp

/-! ## Fields that a write sets -/

@[simp] theorem setSysctl_keeps (v : Word) (s : State) : Keeps s (setSysctl v s) := by
  unfold setSysctl; (repeat' split) <;> simp

@[simp] theorem setExcctl_keeps (v : Word) (s : State) : Keeps s (setExcctl v s) := by
  unfold setExcctl; (repeat' split) <;> simp

@[simp] theorem setShortRange_keeps (k : Chan) (v : Word) (s : State) : Keeps s (setShortRange k v s) := by
  unfold setShortRange; (repeat' split) <;> simp

@[simp] theorem setChctl_keeps (k : Chan) (v : Word) (s : State) : Keeps s (setChctl k v s) := by
  simp only [setChctl]; (repeat' split) <;> simp

@[simp] theorem setRawOf_keeps (which : Chan → Bool) (v : Word) (s : State) : Keeps s (setRawOf which v s) := by
  unfold setRawOf; (repeat' split) <;> simp

@[simp] theorem setRaw_keeps (v : Word) (s : State) : Keeps s (setRaw v s) := by
  unfold setRaw; (repeat' split) <;> simp

@[simp] theorem setTxen_keeps (v : Word) (s : State) : Keeps s (setTxen v s) := by
  unfold setTxen; (repeat' split) <;> simp

@[simp] theorem dropSolve_keeps (k : Chan) (s : State) : Keeps s (dropSolve k s) := by
  unfold dropSolve; (repeat' split) <;> simp

@[simp] theorem kernEnable_keeps (k : Chan) (b : Bool) (s : State) : Keeps s (kernEnable k b s) := by
  unfold kernEnable; (repeat' split) <;> simp

@[simp] theorem kokCheck_keeps (k : Chan) (s : State) : Keeps s (kokCheck k s) := by
  simp only [kokCheck]; (repeat' split) <;> simp

@[simp] theorem setKernEn_keeps (which : Chan → Bool) (v : Word) (s : State) : Keeps s (setKernEn which v s) := by
  unfold setKernEn; (repeat' split) <;> simp

@[simp] theorem setKernctl_keeps (v : Word) (s : State) : Keeps s (setKernctl v s) := by
  unfold setKernctl; (repeat' split) <;> simp

@[simp] theorem enterSearch_keeps (s : State) : Keeps s (enterSearch s) := by
  unfold enterSearch; (repeat' split) <;> simp

@[simp] theorem linkOff_keeps (s : State) : Keeps s (linkOff s) := by simp [linkOff]

@[simp] theorem setGlctl_keeps (v : Word) (s : State) : Keeps s (setGlctl v s) := by
  unfold setGlctl; (repeat' split) <;> simp

@[simp] theorem restartLink_keeps (s : State) : Keeps s (restartLink s) := by
  simp only [restartLink]; (repeat' split) <;> simp

@[simp] theorem applyGlctl_keeps (v : Word) (s : State) : Keeps s (applyGlctl v s) := by
  unfold applyGlctl; (repeat' split) <;> simp

@[simp] theorem setFkctl_keeps (v : Word) (s : State) : Keeps s (setFkctl v s) := by
  unfold setFkctl; (repeat' split) <;> simp

@[simp] theorem setFkresp_keeps (v : Word) (s : State) : Keeps s (setFkresp v s) := by
  unfold setFkresp; (repeat' split) <;> simp

@[simp] theorem setBp_keeps (v : Word) (s : State) : Keeps s (setBp v s) := by
  unfold setBp; (repeat' split) <;> simp

@[simp] theorem setNvprot_keeps (v : Word) (s : State) : Keeps s (setNvprot v s) := by
  unfold setNvprot; (repeat' split) <;> simp

@[simp] theorem deferredChctl_keeps (k : Chan) (v : Word) (s : State) : Keeps s (deferredChctl k v s) := by
  unfold deferredChctl; (repeat' split) <;> simp

@[simp] theorem deferredExcctl_keeps (v : Word) (s : State) : Keeps s (deferredExcctl v s) := by
  unfold deferredExcctl; (repeat' split) <;> simp

@[simp] theorem applyDeferred_keeps (d : Deferred) (s : State) : Keeps s (applyDeferred d s) := by
  unfold applyDeferred; (repeat' split) <;> simp

/-! ## NV controller -/

@[simp] theorem requestRing_keeps (r : Fin 64) (value : BitVec 64) (job : SealJob) (s : State) :
    Keeps s (requestRing r value job s) := by
  unfold requestRing; (repeat' split) <;> simp

@[simp] theorem advancePosition_keeps (n : Nat) (s : State) : Keeps s (advancePosition n s) := by
  simp only [advancePosition]; (repeat' split) <;> simp

/-- An operation other than a shadow store begins where none runs. -/
theorem startOp_keeps (op : ArrayOp) (s : State) (h : storeImage (some op) = storeImage s.nv.running) :
    Keeps s (startOp op s) := by simp [startOp, h]


@[simp] theorem incrementDone_keeps (s : State) : Keeps s (incrementDone s) := by
  unfold incrementDone
  have h := foldl_keeps s.sl.deferred (fun t d => applyDeferred d t) (fun d t => applyDeferred_keeps d t)
  simp only [Keeps] at h ⊢
  simp [h]


@[simp] theorem abandonSealJob_keeps (job : SealJob) (s : State) : Keeps s (abandonSealJob job s) := by
  cases job <;> simp [abandonSealJob]


@[simp] theorem notWritten_keeps (f : Fate) (s : State) : Keeps s (notWritten f s) := by
  unfold notWritten; split <;> simp

@[simp] theorem refusePort_keeps (s : State) : Keeps s (refusePort s) := by simp [refusePort]

@[simp] theorem portEntry_keeps (f : State → State) (s : State) (h : ∀ t, Keeps t (f t)) : Keeps s (portEntry f s) := by
  unfold portEntry; (repeat' split) <;> simp [h]

@[simp] theorem dropEntry_keeps (x : Byte × Fate) (s : State) : Keeps s (dropEntry x s) := by
  simp only [dropEntry, when]; split <;> simp

theorem startWriter_keeps (s : State) (h : s.nv.running = none) : Keeps s (startWriter s) := by
  simp only [startWriter]
  split
  · exact startOp_keeps _ _ (by simp [h, storeImage])
  · generalize hd : dropDead (sessionOpen s) s.imp.next s.imp.queue = d
    have h1 := forAll_keeps d.2 dropEntry { s with imp := { s.imp with queue := d.1 } } (fun x t => dropEntry_keeps x t)
    simp only [Keeps] at h1
    split
    · simpa using h1
    · have h2 := startOp_keeps (.imprint (waitingAhead (sessionOpen s) s.imp.next d.1)
        (batchSize (sessionOpen s) (s.imp.next / 4) s.imp.next (d.1.drop (waitingAhead (sessionOpen s) s.imp.next d.1))))
        (forAll d.2 dropEntry { s with imp := { s.imp with queue := d.1 } }) (by rw [h1.2.2.2.2.2.2]; simp [h, storeImage])
      simp only [Keeps] at h2 ⊢
      simp [h2, h1]


theorem startHost_keeps (s : State) (h : s.nv.running = none) : Keeps s (startHost s) := by
  unfold startHost
  (repeat' split) <;> first | (simp; done) | simp [startOp, h, storeImage]


theorem startSeal_keeps (s t : State) (hr : s.nv.running = none) (h : startSeal s = some t) : Keeps s t := by
  unfold startSeal at h
  split at h
  · exact absurd h (by simp)
  · dsimp only at h
    split at h
    · cases h; simp [startOp, hr, storeImage]
    · cases h; simp

@[simp] theorem nextRefreshPage_keeps (s : State) : Keeps s (nextRefreshPage s) := by
  simp only [nextRefreshPage, when]; split <;> simp

theorem examinePage_keeps (m : MarginReading) (s : State) (h : s.nv.running = none) : Keeps s (examinePage m s) := by
  simp only [examinePage]
  refine Keeps.trans ?_ (nextRefreshPage_keeps _)
  (repeat' split) <;> first | exact raise_keeps _ _ | simp [startOp, h, storeImage]

theorem startRefresh_keeps (s : State) (h : s.nv.running = none) : Keeps s (startRefresh s) := by
  unfold startRefresh
  split
  · simp
  · split
    · simp
    · split
      · have h1 := examinePage_keeps ‹MarginReading› { s with nv := { s.nv with refresh := none } } h
        simpa using h1
      · simp

/-- R362: what the controller starts is no shadow store. -/
@[simp] theorem kick_keeps (s : State) : Keeps s (kick s) := by
  unfold kick
  split
  · simp
  · have hr : s.nv.running = none := by
      rename_i h; simp [mayStart] at h; exact h.1.1
    split
    · exact startSeal_keeps s _ hr ‹_›
    · have h1 := startWriter_keeps s hr
      dsimp only; split
      · exact h1
      · rename_i hn
        have h2 := Keeps.trans h1 (startHost_keeps (startWriter s) (by simpa using hn))
        split
        · exact h2
        · rename_i hn2
          exact Keeps.trans h2 (startRefresh_keeps _ (by simpa using hn2))

@[simp] theorem afterEntry_keeps (s : State) (e : Entry) : Keeps s (afterEntry s e) := by
  unfold afterEntry; (repeat' split) <;> simp

@[simp] theorem sealJobDone_keeps (job : SealJob) (s : State) : Keeps s (sealJobDone job s) := by
  unfold sealJobDone; (repeat' split) <;> simp

@[simp] theorem shedStores_keeps (s : State) : Keeps s (shedStores s) := by
  unfold shedStores; (repeat' split) <;> simp

/-! ## Key store -/

@[simp] theorem flushCheck_keeps (s : State) : Keeps s (flushCheck s) := by
  unfold flushCheck; (repeat' split) <;> simp

@[simp] theorem writeSlot_keeps (slot : Nat) (ws : Option (List Word)) (s : State) : Keeps s (writeSlot slot ws s) := by
  unfold writeSlot; (repeat' split) <;> simp

@[simp] theorem abandonClosing_keeps (s : State) : Keeps s (abandonClosing s) := by
  unfold abandonClosing; (repeat' split) <;> simp

@[simp] theorem abandonSigning_keeps (s : State) : Keeps s (abandonSigning s) := by
  unfold abandonSigning; (repeat' split) <;> simp

@[simp] theorem clearCores_keeps (s : State) : Keeps s (clearCores s) := by simp [clearCores]

@[simp] theorem zeroizeLogged_keeps (log : Bool) (cause : Nat) (s : State) : Keeps s (zeroizeLogged log cause s) := by
  unfold zeroizeLogged; (repeat' split) <;> simp

@[simp] theorem zeroize_keeps (cause : Nat) (s : State) : Keeps s (zeroize cause s) := by
  unfold zeroize; (repeat' split) <;> simp

@[simp] theorem requestPort_keeps (ir : Byte) (byTest : Bool) (s : State) : Keeps s (requestPort ir byTest s) := by
  simp only [requestPort]; (repeat' split) <;> simp

/-! ## Restores -/

@[simp] theorem loadChannelWord_keeps (w : Option Word) (k : Chan) (s : State) : Keeps s (loadChannelWord w k s) := by
  unfold loadChannelWord; (repeat' split) <;> simp

@[simp] theorem loadFrontEnd_keeps (s : State) : Keeps s (loadFrontEnd s) := by
  simp only [loadFrontEnd]; (repeat' split) <;> simp

@[simp] theorem loadCalWords_keeps (s : State) : Keeps s (loadCalWords s) := by
  unfold loadCalWords; (repeat' split) <;> simp

@[simp] theorem loadGalley_keeps (s : State) : Keeps s (loadGalley s) := by
  unfold loadGalley; (repeat' split) <;> simp

@[simp] theorem loadProtection_keeps (s : State) : Keeps s (loadProtection s) := by
  unfold loadProtection; (repeat' split) <;> simp

@[simp] theorem recompute_keeps (k : Chan) (s : State) : Keeps s (recompute k s) := by
  unfold recompute; (repeat' split) <;> simp

@[simp] theorem installForme_keeps (k : Chan) (image : Vector W32 64) (s : State) :
    Keeps s (installForme k image s) := by
  unfold installForme; (repeat' split) <;> simp

@[simp] theorem restoreForme_keeps (k : Chan) (s : State) : Keeps s (restoreForme k s) := by
  unfold restoreForme
  split
  · simp
  · split
    · simp
    · dsimp only; split <;> simp


@[simp] theorem loadCase_keeps (k : Chan) (q : Nat) (t : Trailer) (s : State) : Keeps s (loadCase k q t s) := by
  unfold loadCase; (repeat' split) <;> simp

@[simp] theorem failCase_keeps (k : Chan) (s : State) : Keeps s (restoreCase.failCase k s) := by
  unfold restoreCase.failCase; dsimp only; split <;> simp

@[simp] theorem restoreCase_keeps (k : Chan) (s : State) : Keeps s (restoreCase k s) := by
  unfold restoreCase; (repeat' split) <;> simp


@[simp] theorem reloadCal_keeps (k : Chan) (s : State) : Keeps s (reloadCal k s) := by
  unfold reloadCal; (repeat' split) <;> simp

@[simp] theorem restoreCal_keeps (k : Chan) (s : State) : Keeps s (restoreCal k s) := by
  unfold restoreCal; (repeat' split) <;> simp

@[simp] theorem modeChange_keeps (s : State) : Keeps s (modeChange s) := by
  unfold modeChange; (repeat' split) <;> simp

/-! ## Power -/

@[simp] theorem scanRings_keeps (s : State) : Keeps s (scanRings s) := by
  unfold scanRings; (repeat' split) <;> simp

@[simp] theorem scanImprint_keeps (s : State) : Keeps s (scanImprint s) := by
  unfold scanImprint; (repeat' split) <;> simp

@[simp] theorem seedLfsr_keeps (failed : Bool) (s : State) : Keeps s (seedLfsr failed s) := by
  unfold seedLfsr; (repeat' split) <;> simp

@[simp] theorem keyAtPowerFail_keeps (s : State) : Keeps s (keyAtPowerFail s) := by
  unfold keyAtPowerFail; (repeat' split) <;> simp

@[simp] theorem startLink_keeps (s : State) : Keeps s (startLink s) := by
  unfold startLink; (repeat' split) <;> simp

@[simp] theorem loadPatch_keeps (s : State) : Keeps s (loadPatch s) := by
  unfold loadPatch; (repeat' split) <;> simp

@[simp] theorem restoreAll_keeps (s : State) : Keeps s (restoreAll s) := by
  unfold restoreAll; (repeat' split) <;> simp

@[simp] theorem releaseSignal_keeps (s : State) : Keeps s (releaseSignal s) := by
  unfold releaseSignal; (repeat' split) <;> simp

@[simp] theorem heartbeat_keeps (v : Word) (s : State) : Keeps s (heartbeat v s) := by
  unfold heartbeat; (repeat' split) <;> simp

@[simp] theorem liveBoundary_keeps (s : State) : Keeps s (liveBoundary s) := by
  unfold liveBoundary; (repeat' split) <;> simp

end Sys2Proof.Machine
end

