-- ==== Sys2Proof/Laws/KeepsUnits.lean ====
section
/-! SUPPORT. Laws/KeepsUnits.lean: which operations of the units leave the memories, the phase of the device and the queue of
commands as they were. -/

namespace Sys2Proof.Machine

/-! ## Engine -/

@[simp] theorem clampCheck_keeps (k : Chan) (t : Int) (s : State) : Keeps s (clampCheck k t s) := by
  unfold clampCheck; (repeat' split) <;> simp

@[simp] theorem latchCal_keeps (k : Chan) (s : State) : Keeps s (latchCal k s) := by
  simp only [latchCal]; (repeat' split) <;> simp

@[simp] theorem abandonBlock_keeps (s : State) : Keeps s (abandonBlock s) := by
  unfold abandonBlock; (repeat' split) <;> simp

@[simp] theorem toneRestart_keeps (k : Chan) (s : State) : Keeps s (toneRestart k s) := by
  unfold toneRestart; (repeat' split) <;> simp

@[simp] theorem toneEnd_keeps (k : Chan) (s : State) : Keeps s (toneEnd k s) := by
  unfold toneEnd; (repeat' split) <;> simp

@[simp] theorem edge_keeps (id : Nat) (fires : Bool) (s : State) : Keeps s (edge id fires s) := by
  simp only [edge]; (repeat' split) <;> simp

@[simp] theorem restartForme_keeps (k : Chan) (s : State) : Keeps s (restartForme k s) := by
  unfold restartForme; (repeat' split) <;> simp

@[simp] theorem finishFade_keeps (k : Chan) (s : State) : Keeps s (finishFade k s) := by
  unfold finishFade; (repeat' split) <;> simp

@[simp] theorem idleGenerator_keeps (s : State) : Keeps s (idleGenerator s) := by
  unfold idleGenerator; (repeat' split) <;> simp

@[simp] theorem endRun_keeps (st : ChanState) (k : Chan) (s : State) : Keeps s (endRun st k s) := by
  unfold endRun; (repeat' split) <;> simp

@[simp] theorem stopChannel_keeps (k : Chan) (s : State) : Keeps s (stopChannel k s) := by
  unfold stopChannel; (repeat' split) <;> simp

@[simp] theorem haltChannel_keeps (k : Chan) (s : State) : Keeps s (haltChannel k s) := by
  unfold haltChannel; (repeat' split) <;> simp

@[simp] theorem clockLost_keeps (k : Chan) (s : State) : Keeps s (clockLost k s) := by
  unfold clockLost; (repeat' split) <;> simp

@[simp] theorem enqueue_keeps (k : Chan) (wanted : Bool) (r : Record) (s : State) : Keeps s (enqueue k wanted r s) := by
  simp only [enqueue]; (repeat' split) <;> simp

@[simp] theorem tapOutput_keeps (k : Chan) (ops : List StageOp) (x : Int) (ovr : Bool) (s : State) :
    Keeps s (tapOutput k ops x ovr s) := by
  unfold tapOutput; (repeat' split) <;> simp

@[simp] theorem kernBoundary_keeps (k : Chan) (s : State) : Keeps s (kernBoundary k s) := by
  simp only [kernBoundary]; (repeat' split) <;> simp

@[simp] theorem fadeBoundary_keeps (k : Chan) (s : State) : Keeps s (fadeBoundary k s) := by
  unfold fadeBoundary; (repeat' split) <;> simp

@[simp] theorem finalOutput_keeps (k : Chan) (ops : List StageOp) (x : Int) (ovr : Bool) (s : State) :
    Keeps s (finalOutput k ops x ovr s) := by
  unfold finalOutput; (repeat' split) <;> simp

@[simp] theorem motionSample_keeps (k : Chan) (ops : List StageOp) (x : Int) (s : State) :
    Keeps s (motionSample k ops x s) := by
  unfold motionSample; (repeat' split) <;> simp

@[simp] theorem formeSample_keeps (k : Chan) (x : Int) (beyond : Bool) (s : State) :
    Keeps s (formeSample k x beyond s).1 := by
  simp only [formeSample]; (repeat' split) <;> simp

@[simp] theorem setHeld_keeps (id : Nat) (b : Bool) (s : State) : Keeps s (setHeld id b s) := by simp [setHeld]

@[simp] theorem detectHalt_keeps (k : Chan) (id : Nat) (cond : Bool) (s : State) :
    Keeps s (detectHalt k id cond s) := by
  simp only [detectHalt]; (repeat' split) <;> simp

@[simp] theorem monitorChannel_keeps (k : Chan) (i : ChanInput) (avdd : Nat) (bad : Bool) (s : State) :
    Keeps s (monitorChannel k i avdd bad s) := by
  simp only [monitorChannel]; (repeat' split) <;> simp

@[simp] theorem overloadStep_keeps (k : Chan) (i : ChanInput) (avdd : Nat) (s : State) :
    Keeps s (overloadStep k i avdd s).1 := by
  simp only [overloadStep]; (repeat' split) <;> simp

@[simp] theorem kernSample_keeps (k : Chan) (dcTurn : Bool) (s : State) : Keeps s (kernSample k dcTurn s) := by
  simp only [kernSample]; (repeat' split) <;> simp

@[simp] theorem runChannel_keeps (k : Chan) (i : ChanInput) (avdd : Nat) (dcTurn : Bool) (o : State × Bool × Bool) :
    Keeps o.1 (runChannel k i avdd dcTurn o).1 := by
  simp only [runChannel]; (repeat' split) <;> simp

@[simp] theorem channelTurn_keeps (k : Chan) (i : ChanInput) (avdd : Nat) (bad dcTurn : Bool) (s : State) :
    Keeps s (channelTurn k i avdd bad dcTurn s).1 := by
  simp only [channelTurn]
  split
  · simp
  · split
    · simp
    · exact Keeps.trans (monitorChannel_keeps k i avdd bad s)
        (Keeps.trans (overloadStep_keeps k i avdd _) (runChannel_keeps k i avdd dcTurn _))
    · simp

@[simp] theorem toneSample_keeps (x : Int) (taken : Bool) (s : State) : Keeps s (toneSample x taken s) := by
  unfold toneSample; (repeat' split) <;> simp

@[simp] theorem spareTurn_keeps (dcTurn : Bool) (tone : Option Int) (s : State) :
    Keeps s (spareTurn dcTurn tone s) := by
  simp only [spareTurn]; (repeat' split) <;> simp

@[simp] theorem selfCheckTurn_keeps (t : TurnInput) (s : State) : Keeps s (selfCheckTurn t s) := by
  simp only [selfCheckTurn]; (repeat' split) <;> simp

@[simp] theorem setTrim_keeps (v : Int) (s : State) : Keeps s (setTrim v s) := by
  simp only [setTrim, when]; (repeat' split) <;> simp

@[simp] theorem trimTurn_keeps (s : State) : Keeps s (trimTurn s) := by
  simp only [trimTurn]; (repeat' split) <;> simp

@[simp] theorem advancePhase_keeps (s : State) : Keeps s (advancePhase s) := by
  unfold advancePhase; (repeat' split) <;> simp

@[simp] theorem channelTurns_keeps (t : TurnInput) (v : Nat) (b dc : Bool) (xs : List Chan) :
    ∀ acc : State × Option Int,
      Keeps acc.1 (xs.foldl
        (fun (acc : State × Option Int) k =>
          let r := channelTurn k (t.ch.get k) v b dc acc.1
          (r.1, if r.1.tone.useCh.toNat = k.val then r.2 else acc.2)) acc).1 := by
  induction xs with
  | nil => simp
  | cons x xs ih =>
    intro acc
    have h := channelTurn_keeps x (t.ch.get x) v b dc acc.1
    have h2 := ih (let r := channelTurn x (t.ch.get x) v b dc acc.1
          (r.1, if r.1.tone.useCh.toNat = x.val then r.2 else acc.2))
    simp only [List.foldl_cons, Keeps] at *
    simp_all

@[simp] theorem activateForme_keeps (k : Chan) (preset : Option (BitVec 3)) (image : Vector W32 64) (s : State) :
    Keeps s (activateForme k preset image s) := by
  unfold activateForme; (repeat' split) <;> simp

@[simp] theorem dropForeign_keeps (legal : Bool) (k : Chan) (s : State) : Keeps s (dropForeign legal k s) := by
  unfold dropForeign; (repeat' split) <;> simp

@[simp] theorem endLoad_keeps (s : State) : Keeps s (endLoad s) := by
  unfold endLoad; (repeat' split) <;> simp

@[simp] theorem countWork_keeps (s : State) : Keeps s (countWork s) := by
  simp only [countWork]; (repeat' split) <;> simp

@[simp] theorem engineTurn_keeps (t : TurnInput) (s : State) : Keeps s (engineTurn t s) := by
  have h := channelTurns_keeps t
  simp only [Keeps] at h
  unfold engineTurn; dsimp only
  simp [h]


@[simp] theorem endModReset_keeps (k : Chan) (s : State) : Keeps s (endModReset k s) := by
  unfold endModReset; (repeat' split) <;> simp

/-! ## Events -/

@[simp] theorem writeEvsum_keeps (n : Nat) (v : Word) (s : State) : Keeps s (writeEvsum n v s) := by
  unfold writeEvsum; (repeat' split) <;> simp

@[simp] theorem writeEvroute_keeps (v : Word) (s : State) : Keeps s (writeEvroute v s) := by
  unfold writeEvroute; (repeat' split) <;> simp

@[simp] theorem writeInjkey_keeps (v : Word) (s : State) : Keeps s (writeInjkey v s) := by
  unfold writeInjkey; (repeat' split) <;> simp

@[simp] theorem clearInjFlags_keeps (v : Word) (s : State) : Keeps s (clearInjFlags v s) := by
  unfold clearInjFlags; (repeat' split) <;> simp

@[simp] theorem injectNow_keeps (id : Nat) (s : State) : Keeps s (injectNow id s) := by
  simp only [injectNow]; (repeat' split) <;> simp

@[simp] theorem writeInj_keeps (v : Word) (s : State) : Keeps s (writeInj v s) := by
  simp only [writeInj]; (repeat' split) <;> simp

@[simp] theorem injectionTested_keeps (s : State) : Keeps s (injectionTested s) := by
  simp only [injectionTested]; (repeat' split) <;> simp

@[simp] theorem injectionEnds_keeps (s : State) : Keeps s (injectionEnds s) := by
  unfold injectionEnds; (repeat' split) <;> simp

@[simp] theorem takeMail_keeps (s : State) : Keeps s (takeMail s) := by
  unfold takeMail; (repeat' split) <;> simp

/-! ## Loader and FIFO -/

@[simp] theorem beginStore_keeps (kind : StoreKind) (pages : List (Nat × List Byte)) (s : State) :
    Keeps s (beginStore kind pages s) := by
  unfold beginStore; (repeat' split) <;> simp

@[simp] theorem endStore_keeps (l : LegalStore) (s : State) : Keeps s (endStore l s) := by
  unfold endStore; (repeat' split) <;> simp

@[simp] theorem startCaseStore_keeps (k : Chan) (tgt switch preset : Bool) (s : State) :
    Keeps s (startCaseStore k tgt switch preset s) := by
  unfold startCaseStore; (repeat' split) <;> simp

@[simp] theorem refuseLoad_keeps (k : Chan) (errc errw : Nat) (s : State) : Keeps s (refuseLoad k errc errw s) := by
  unfold refuseLoad; (repeat' split) <;> simp

@[simp] theorem startFormeStore_keeps (k : Chan) (image : Vector W32 64) (s : State) :
    Keeps s (startFormeStore k image s) := by
  unfold startFormeStore; (repeat' split) <;> simp

@[simp] theorem startDynLoad_keeps (k : Chan) (image : Vector W32 64) (s : State) : Keeps s (startDynLoad k image s) := by
  unfold startDynLoad; (repeat' split) <;> simp

@[simp] theorem formeLoad_keeps (s : State) : Keeps s (formeLoad s) := by
  simp only [formeLoad]; (repeat' split) <;> simp

@[simp] theorem writeFmctl_keeps (v : Word) (s : State) : Keeps s (writeFmctl v s) := by
  unfold writeFmctl; (repeat' split) <;> simp

@[simp] theorem formeStored_keeps (l : LegalStore) (s : State) : Keeps s (formeStored l s) := by
  simp only [formeStored]; (repeat' split) <;> simp

@[simp] theorem flushFifo_keeps (s : State) : Keeps s (flushFifo s) := by
  unfold flushFifo; (repeat' split) <;> simp

@[simp] theorem writeSmpctl_keeps (v : Word) (s : State) : Keeps s (writeSmpctl v s) := by
  unfold writeSmpctl; (repeat' split) <;> simp

@[simp] theorem readSmpdat_keeps (s : State) : Keeps s (readSmpdat s).2 := by
  unfold readSmpdat; (repeat' split) <;> simp

/-! ## Front end -/

@[simp] theorem refuseExcctl_keeps (s : State) : Keeps s (refuseExcctl s) := by
  unfold refuseExcctl; (repeat' split) <;> simp

@[simp] theorem writeExcctl_keeps (v : Word) (s : State) : Keeps s (writeExcctl v s) := by
  unfold writeExcctl; (repeat' split) <;> simp

@[simp] theorem chctlConfig_keeps (k : Chan) (v : Word) (s : State) : Keeps s (chctlConfig k v s) := by
  simp only [chctlConfig]; (repeat' split) <;> simp

@[simp] theorem startRequest_keeps (m : BitVec 4) (s : State) : Keeps s (startRequest m s) := by
  simp only [startRequest]; (repeat' split) <;> simp

@[simp] theorem stopRequest_keeps (m : BitVec 4) (s : State) : Keeps s (stopRequest m s) := by
  unfold stopRequest; (repeat' split) <;> simp

@[simp] theorem writeChctl_keeps (k : Chan) (v : Word) (s : State) : Keeps s (writeChctl k v s) := by
  unfold writeChctl; (repeat' split) <;> simp

@[simp] theorem goRequest_keeps (m : BitVec 4) (s : State) : Keeps s (goRequest m s) := by
  unfold goRequest; (repeat' split) <;> simp

@[simp] theorem stopAllRequest_keeps (m : BitVec 4) (s : State) : Keeps s (stopAllRequest m s) := by
  unfold stopAllRequest; (repeat' split) <;> simp

@[simp] theorem cancelRequest_keeps (s : State) : Keeps s (cancelRequest s) := by
  simp [cancelRequest]

@[simp] theorem armStart_keeps (c : Bool) (s : State) : Keeps s (armStart c s) := by
  simp [armStart]

@[simp] theorem cancelEffect_keeps (s : State) : Keeps s (cancelEffect s) := by
  simp [cancelEffect]

@[simp] theorem takeEdge_keeps (s : State) : Keeps s (takeEdge s) := by
  simp [takeEdge]

@[simp] theorem syncEdge_keeps (s : State) : Keeps s (syncEdge s) := by
  simp only [syncEdge]; (repeat' split) <;> simp

@[simp] theorem writeChstart_keeps (v : Word) (s : State) : Keeps s (writeChstart v s) := by
  unfold writeChstart; (repeat' split) <;> simp

@[simp] theorem clearHeld_keeps (k : Chan) (s : State) : Keeps s (clearHeld k s) := by
  unfold clearHeld; (repeat' split) <;> simp

@[simp] theorem beginStart_keeps (k : Chan) (s : State) : Keeps s (beginStart k s) := by
  unfold beginStart; (repeat' split) <;> simp

@[simp] theorem startChannel_keeps (k : Chan) (s : State) : Keeps s (startChannel k s) := by
  simp only [startChannel]; (repeat' split) <;> simp

@[simp] theorem startEffect_keeps (s : State) : Keeps s (startEffect s) := by
  unfold startEffect; (repeat' split) <;> simp

@[simp] theorem stopEffect_keeps (s : State) : Keeps s (stopEffect s) := by
  unfold stopEffect; (repeat' split) <;> simp

@[simp] theorem excitationOn_keeps (s : State) : Keeps s (excitationOn s) := by
  simp only [excitationOn]; (repeat' split) <;> simp

@[simp] theorem firstSample_keeps (k : Chan) (s : State) : Keeps s (firstSample k s) := by
  simp only [firstSample]; (repeat' split) <;> simp

@[simp] theorem reversal_keeps (s : State) : Keeps s (reversal s) := by
  unfold reversal; (repeat' split) <;> simp

@[simp] theorem gapReading_keeps (k : Chan) (r : GapReading) (s : State) : Keeps s (gapReading k r s) := by
  unfold gapReading; (repeat' split) <;> simp

@[simp] theorem crystalStop_keeps (s : State) : Keeps s (crystalStop s) := by
  unfold crystalStop; (repeat' split) <;> simp

@[simp] theorem newReading_keeps (isExt : Bool) (v : Word) (k : Chan) (s : State) :
    Keeps s (newReading isExt v k s) := by
  simp only [newReading]; (repeat' split) <;> simp

@[simp] theorem readingCheck_keeps (isExt : Bool) (k : Chan) (s : State) : Keeps s (readingCheck isExt k s) := by
  simp only [readingCheck]; (repeat' split) <;> simp

@[simp] theorem detectExternal_keeps (id : Nat) (cond : Bool) (s : State) : Keeps s (detectExternal id cond s) := by
  unfold detectExternal; (repeat' split) <;> simp

@[simp] theorem conversionDone_keeps (isExt : Bool) (c : TempReading) (s : State) :
    Keeps s (conversionDone isExt c s) := by
  simp only [conversionDone]; (repeat' split) <;> simp

@[simp] theorem tempDone_keeps (c : TempReading) (s : State) : Keeps s (tempDone c s) := by
  simp only [tempDone]; (repeat' split) <;> simp

/-! ## Cases -/

@[simp] theorem readCase_keeps (k : Chan) (s : State) : Keeps s (readCase k s) := parityRead_keeps _ s

@[simp] theorem readLegal_keeps (s : State) : Keeps s (readLegal s) :=
  forAll_keeps _ _ s fun k t => by
    split
    · exact Keeps.trans (parityRead_keeps _ t) (readCase_keeps k _)
    · simp

@[simp] theorem caseCopy_keeps (k : Chan) (s : State) : Keeps s (caseCopy k s) := by
  simp only [caseCopy]; (repeat' split) <;> simp

@[simp] theorem caseSwitch_keeps (k : Chan) (s : State) : Keeps s (caseSwitch k s) := by
  unfold caseSwitch; (repeat' split) <;> simp

@[simp] theorem writeCasectl_keeps (v : Word) (s : State) : Keeps s (writeCasectl v s) := by
  unfold writeCasectl; (repeat' split) <;> simp

@[simp] theorem caseStored_keeps (l : LegalStore) (s : State) : Keeps s (caseStored l s) := by
  unfold caseStored; (repeat' split) <;> simp

@[simp] theorem writeGrpdly_keeps (v : Word) (s : State) : Keeps s (writeGrpdly v s) := by
  unfold writeGrpdly; (repeat' split) <;> simp

@[simp] theorem readGrpdly_keeps (s : State) : Keeps s (readGrpdly s).2 := by
  unfold readGrpdly; (repeat' split) <;> simp

/-! ## Tone detector -/

@[simp] theorem setAbove_keeps (m : W32) (s : State) : Keeps s (setAbove m s) := by
  unfold setAbove; (repeat' split) <;> simp

@[simp] theorem toneResult_keeps (s : State) : Keeps s (toneResult s) := by
  unfold toneResult; (repeat' split) <;> simp

@[simp] theorem startTone_keeps (s : State) : Keeps s (startTone s) := by
  unfold startTone; (repeat' split) <;> simp

@[simp] theorem stopTone_keeps (s : State) : Keeps s (stopTone s) := by
  unfold stopTone; (repeat' split) <;> simp

@[simp] theorem storeToneParam_keeps (v : Word) (s : State) : Keeps s (storeToneParam v s) := by
  unfold storeToneParam; (repeat' split) <;> simp

@[simp] theorem writeTonectl_keeps (v : Word) (s : State) : Keeps s (writeTonectl v s) := by
  unfold writeTonectl; (repeat' split) <;> simp

@[simp] theorem readTonectl_keeps (s : State) : Keeps s (readTonectl s).2 := by
  unfold readTonectl; (repeat' split) <;> simp

@[simp] theorem writeTonest_keeps (v : Word) (s : State) : Keeps s (writeTonest v s) := by
  unfold writeTonest; (repeat' split) <;> simp

/-! ## Calibration and Kern -/

@[simp] theorem startCalStore_keeps (k : Chan) (s : State) : Keeps s (startCalStore k s) := by
  unfold startCalStore; (repeat' split) <;> simp

@[simp] theorem calStore_keeps (s : State) : Keeps s (calStore s) := by
  simp only [calStore]; (repeat' split) <;> simp

@[simp] theorem calReload_keeps (s : State) : Keeps s (calReload s) := by
  unfold calReload; (repeat' split) <;> simp

@[simp] theorem calRwm_keeps (v : Word) (s : State) : Keeps s (calRwm v s) := by
  simp only [calRwm]; (repeat' split) <;> simp

@[simp] theorem writeCalctl_keeps (v : Word) (s : State) : Keeps s (writeCalctl v s) := by
  unfold writeCalctl; (repeat' split) <;> simp

@[simp] theorem calStored_keeps (l : LegalStore) (s : State) : Keeps s (calStored l s) := by
  unfold calStored; (repeat' split) <;> simp

@[simp] theorem kernReset_keeps (k : Chan) (s : State) : Keeps s (kernReset k s) := by
  unfold kernReset; (repeat' split) <;> simp

@[simp] theorem writeKernctl_keeps (v : Word) (s : State) : Keeps s (writeKernctl v s) := by
  simp only [writeKernctl]; (repeat' split) <;> simp

@[simp] theorem requestSolve_keeps (k : Chan) (s : State) : Keeps s (requestSolve k s) := by
  unfold requestSolve; (repeat' split) <;> simp

@[simp] theorem epochEnd_keeps (k : Chan) (s : State) : Keeps s (epochEnd k s) := by
  unfold epochEnd; (repeat' split) <;> simp

@[simp] theorem solveEnd_keeps (s : State) : Keeps s (solveEnd s) := by
  unfold solveEnd; (repeat' split) <;> simp

@[simp] theorem pendingTimeout_keeps (k : Chan) (s : State) : Keeps s (pendingTimeout k s) := by
  simp only [pendingTimeout]; (repeat' split) <;> simp

/-! ## NVCTL, TXNCTL, IMPCTL -/

@[simp] theorem emptyBuffer_keeps (s : State) : Keeps s (emptyBuffer s) := by
  unfold emptyBuffer; (repeat' split) <;> simp

@[simp] theorem nvCommit_keeps (s : State) : Keeps s (nvCommit s) := by
  simp only [nvCommit]; (repeat' split) <;> simp

@[simp] theorem slugOpen_keeps (r : Nat) (s : State) : Keeps s (slugOpen r s) := by
  unfold slugOpen; (repeat' split) <;> simp

@[simp] theorem slugRead_keeps (r : Nat) (s : State) : Keeps s (slugRead r s) := by
  unfold slugRead; (repeat' split) <;> simp

@[simp] theorem slugWord_keeps (v : Word) (s : State) : Keeps s (slugWord v s) := by
  simp only [slugWord]; (repeat' split) <;> simp

@[simp] theorem readNvctl_keeps (s : State) : Keeps s (readNvctl s).2 := by
  unfold readNvctl; (repeat' split) <;> simp

@[simp] theorem writeNvprot_keeps (v : Word) (s : State) : Keeps s (writeNvprot v s) := by
  unfold writeNvprot; (repeat' split) <;> simp

@[simp] theorem keyInPowerFail_keeps (s : State) : Keeps s (keyInPowerFail s) := by
  unfold keyInPowerFail; (repeat' split) <;> simp

@[simp] theorem txnOpen_keeps (s : State) : Keeps s (txnOpen s) := by
  unfold txnOpen; (repeat' split) <;> simp

@[simp] theorem refuseTxn_keeps (ev : Nat) (s : State) : Keeps s (refuseTxn ev s) := by
  unfold refuseTxn; (repeat' split) <;> simp

@[simp] theorem txnAbort_keeps (s : State) : Keeps s (txnAbort s) := by
  unfold txnAbort; (repeat' split) <;> simp

@[simp] theorem writeImpctl_keeps (v : Word) (s : State) : Keeps s (writeImpctl v s) := by
  unfold writeImpctl; (repeat' split) <;> simp

@[simp] theorem verifyDone_keeps (s : State) : Keeps s (verifyDone s) := by
  unfold verifyDone; (repeat' split) <;> simp

/-! ## KEYST and the port -/

@[simp] theorem keyData_keeps (v : Word) (s : State) : Keeps s (keyData v s) := by
  unfold keyData; (repeat' split) <;> simp

@[simp] theorem keyLoad_keeps (slot : Nat) (s : State) : Keeps s (keyLoad slot s) := by
  unfold keyLoad; (repeat' split) <;> simp

@[simp] theorem keyWrite_keeps (slot : Nat) (ws : Option (List Word)) (s : State) : Keeps s (keyWrite slot ws s) := by
  unfold keyWrite; (repeat' split) <;> simp

@[simp] theorem keyChange_keeps (cmd slot : Nat) (s : State) : Keeps s (keyChange cmd slot s) := by
  unfold keyChange; (repeat' split) <;> simp

@[simp] theorem writeKeyst_keeps (v : Word) (s : State) : Keeps s (writeKeyst v s) := by
  unfold writeKeyst; (repeat' split) <;> simp

@[simp] theorem readKeyst_keeps (s : State) : Keeps s (readKeyst s).2 := by
  unfold readKeyst; (repeat' split) <;> simp

@[simp] theorem endSession_keeps (s : State) : Keeps s (endSession s) := by
  unfold endSession; (repeat' split) <;> simp

@[simp] theorem requestInReset_keeps (ir : Byte) (s : State) : Keeps s (requestInReset ir s) := by
  simp [requestInReset]

@[simp] theorem portRequest_keeps (ir : Byte) (s : State) : Keeps s (portRequest ir s) := by
  unfold portRequest; (repeat' split) <;> simp

@[simp] theorem portOpened_keeps (s : State) : Keeps s (portOpened s) := by
  unfold portOpened; (repeat' split) <;> simp

@[simp] theorem testHigh_keeps (s : State) : Keeps s (testHigh s) := by
  unfold testHigh; (repeat' split) <;> simp

@[simp] theorem writeCompst_keeps (v : Word) (s : State) : Keeps s (writeCompst v s) := by
  unfold writeCompst; (repeat' split) <;> simp

/-! ## Seal unit -/

@[simp] theorem beginOpening_keeps (tok : List Word) (s : State) : Keeps s (beginOpening tok s) := by
  unfold beginOpening; (repeat' split) <;> simp

@[simp] theorem writeSealkey_keeps (v : Word) (s : State) : Keeps s (writeSealkey v s) := by
  simp only [writeSealkey]; (repeat' split) <;> simp

@[simp] theorem openingCheck_keeps (s : State) : Keeps s (openingCheck s) := by
  unfold openingCheck; (repeat' split) <;> simp

@[simp] theorem deny_keeps (began : Bool) (s : State) : Keeps s (deny began s) := by
  unfold deny; (repeat' split) <;> simp

@[simp] theorem grant_keeps (void : Bool) (s : State) : Keeps s (grant void s) := by
  unfold grant; (repeat' split) <;> simp

@[simp] theorem openingResult_keeps (s : State) : Keeps s (openingResult s) := by
  unfold openingResult; (repeat' split) <;> simp

@[simp] theorem clearSealFlags_keeps (v : Word) (s : State) : Keeps s (clearSealFlags v s) := by
  unfold clearSealFlags; (repeat' split) <;> simp

@[simp] theorem requestClose_keeps (s : State) : Keeps s (requestClose s) := by
  unfold requestClose; (repeat' split) <;> simp

@[simp] theorem writeSealst_keeps (v : Word) (s : State) : Keeps s (writeSealst v s) := by
  unfold writeSealst; (repeat' split) <;> simp

/-! ## Real-time clock -/

@[simp] theorem countRun_keeps (s : State) : Keeps s (countRun s) := by
  unfold countRun; (repeat' split) <;> simp

@[simp] theorem secondTick_keeps (s : State) : Keeps s (secondTick s) := by
  unfold secondTick; (repeat' split) <;> simp

@[simp] theorem stageRtc_keeps (high : Bool) (v : Word) (s : State) : Keeps s (stageRtc high v s) := by
  unfold stageRtc; (repeat' split) <;> simp

@[simp] theorem restampRecord_keeps (old new : W32) (s : State) : Keeps s (restampRecord old new s) := by
  simp only [restampRecord]; (repeat' split) <;> simp

@[simp] theorem setRtc_keeps (v : Word) (s : State) : Keeps s (setRtc v s) := by
  unfold setRtc; (repeat' split) <;> simp

@[simp] theorem readRtcl_keeps (s : State) : Keeps s (readRtcl s).2 := by
  unfold readRtcl; (repeat' split) <;> simp

/-! ## Frisket -/

@[simp] theorem modSrc_keeps (i : Fin 11) (f : Source → Source) (s : State) : Keeps s (modSrc i f s) := by
  unfold modSrc; (repeat' split) <;> simp

@[simp] theorem decideTrip_keeps (i : Fin 11) (injected : Bool) (s : State) : Keeps s (decideTrip i injected s) := by
  unfold decideTrip; (repeat' split) <;> simp

@[simp] theorem classify_keeps (i : Fin 11) (t : Trip) (s : State) : Keeps s (classify i t s) := by
  unfold classify; (repeat' split) <;> simp

@[simp] theorem settleSource_keeps (e : SrcEval) (i : Fin 11) (s : State) : Keeps s (settleSource e i s) := by
  simp only [settleSource]; (repeat' split) <;> simp

@[simp] theorem passStart_keeps (s : State) : Keeps s (passStart s) := by
  unfold passStart; (repeat' split) <;> simp

@[simp] theorem passTiming_keeps (sysTimed : Bool) (s : State) : Keeps s (passTiming sysTimed s) := by
  unfold passTiming; (repeat' split) <;> simp

@[simp] theorem batteryCheck_keeps (mv : Word) (s : State) : Keeps s (batteryCheck mv s) := by
  unfold batteryCheck; (repeat' split) <;> simp

@[simp] theorem latchGlitch_keeps (isA : Bool) (s : State) : Keeps s (latchGlitch isA s) := by
  simp only [latchGlitch]; (repeat' split) <;> simp

@[simp] theorem supplyGlitch_keeps (a b : Bool) (s : State) : Keeps s (supplyGlitch a b s) := by
  unfold supplyGlitch; (repeat' split) <;> simp

@[simp] theorem applyProgram_keeps (v : Word) (s : State) : Keeps s (applyProgram v s) := by
  simp only [applyProgram]; (repeat' split) <;> simp

@[simp] theorem writeFkctl_keeps (v : Word) (s : State) : Keeps s (writeFkctl v s) := by
  simp only [writeFkctl]; (repeat' split) <;> simp

@[simp] theorem writeFkst_keeps (v : Word) (s : State) : Keeps s (writeFkst v s) := by
  unfold writeFkst; (repeat' split) <;> simp

@[simp] theorem writeFkresp_keeps (v : Word) (s0 : State) : Keeps s0 (writeFkresp v s0) := by
  simp only [writeFkresp]; (repeat' split) <;> simp

@[simp] theorem readFkresp_keeps (s : State) : Keeps s (readFkresp s).2 := by
  unfold readFkresp; (repeat' split) <;> simp

@[simp] theorem realTrip_keeps (i : Fin 11) (s : State) : Keeps s (realTrip i s) := by
  simp only [realTrip]; (repeat' split) <;> simp

@[simp] theorem observe_keeps (i : Fin 11) (isA cond : Bool) (code : Byte) (p : Pass) :
    Keeps p.st (observe i isA cond code p).st := by
  unfold observe; simp

@[simp] theorem spend_keeps (n : Nat) (act : Pass → Pass) (p : Pass) (h : ∀ q : Pass, Keeps q.st (act q).st) :
    Keeps p.st (spend n act p).st := by
  unfold spend; (repeat' split) <;> simp [h]

@[simp] theorem driveLoop_keeps (release : Bool) (k : Fin 4) (p : Pass) : Keeps p.st (driveLoop release k p).st := by
  unfold driveLoop; simp

@[simp] theorem caseStep_keeps (r : PassReading) (w : W32) (j : Fin 3) (p : Pass) :
    Keeps p.st (caseStep r w j p).st := by
  unfold caseStep; dsimp only; (repeat' split) <;> simp

@[simp] theorem envStep_keeps (r : PassReading) (j : Fin 3) (p : Pass) : Keeps p.st (envStep r j p).st := by
  unfold envStep; dsimp only; (repeat' split) <;> simp

@[simp] theorem inTurn_keeps {α : Type} (f : α → Pass → Pass) (h : ∀ x q, Keeps q.st (f x q).st) :
    ∀ (xs : List α) (p : Pass), Keeps p.st (inTurn xs f p).st := by
  intro xs
  induction xs with
  | nil => simp [inTurn]
  | cons x xs ih => intro p; have a := h x p; have b := ih (f x p); simp_all [inTurn]

@[simp] theorem plainStep_keeps (r : PassReading) (w : W32) (p : Pass) : Keeps p.st (plainStep r w p).st := by
  unfold plainStep; dsimp only; split <;> simp

theorem runSteps_keeps (r : PassReading) (prog : Vector W32 32) :
    ∀ (fuel i : Nat) (p : Pass), Keeps p.st (runSteps r prog fuel i p).st := by
  intro fuel
  induction fuel with
  | zero => intro i p; simp [runSteps]
  | succ n ih =>
    intro i p
    simp only [Keeps] at ih
    unfold runSteps; dsimp only; (repeat' split) <;> simp [ih]

@[simp] theorem readGlitch_keeps (isA latch : Bool) (p : Pass) : Keeps p.st (readGlitch isA latch p).st := by
  simp only [readGlitch]; (repeat' split) <;> simp

@[simp] theorem frisketPass_keeps (r : PassReading) (s : State) : Keeps s (frisketPass r s) := by
  have h := runSteps_keeps r
  simp only [Keeps] at h
  unfold frisketPass; simp [h]

/-! ## Window -/

@[simp] theorem discardStage_keeps (s : State) : Keeps s (discardStage s) := by
  unfold discardStage; (repeat' split) <;> simp

@[simp] theorem writeWinsel_keeps (v : Word) (s : State) : Keeps s (writeWinsel v s) := by
  unfold writeWinsel; (repeat' split) <;> simp

@[simp] theorem writeWinadr_keeps (high : Bool) (v : Word) (s : State) : Keeps s (writeWinadr high v s) := by
  unfold writeWinadr; (repeat' split) <;> simp

@[simp] theorem advanceWindow_keeps (s : State) : Keeps s (advanceWindow s) := by
  unfold advanceWindow; (repeat' split) <;> simp

@[simp] theorem setBadchk_keeps (b : Bool) (s : State) : Keeps s (setBadchk b s) := by
  unfold setBadchk; (repeat' split) <;> simp

@[simp] theorem nvReadEffect_keeps (w : Nat) (s : State) : Keeps s (nvReadEffect w s) := by
  unfold nvReadEffect; (repeat' split) <;> simp

@[simp] theorem imprintReadEffect_keeps (a : Nat) (s : State) : Keeps s (imprintReadEffect a s) := by
  unfold imprintReadEffect; (repeat' split) <;> simp

@[simp] theorem readEffect_keeps (a : Nat) (s : State) : Keeps s (readEffect a s) := by
  unfold readEffect; (repeat' split) <;> simp

@[simp] theorem outOfRange_keeps (s : State) : Keeps s (outOfRange s) := by
  unfold outOfRange; (repeat' split) <;> simp

@[simp] theorem readElement_keeps (s : State) : Keeps s (readElement s).2 := by
  simp only [readElement]; (repeat' split) <;> simp

@[simp] theorem windatRead_keeps (s : State) : Keeps s (windatRead s).2 := by
  simp only [windatRead]; (repeat' split) <;> simp

@[simp] theorem refuseWindow_keeps (ev : Nat) (s : State) : Keeps s (refuseWindow ev s) := by
  unfold refuseWindow; (repeat' split) <;> simp

@[simp] theorem loadBuffer_keeps (a : Nat) (v : Word) (s : State) : Keeps s (loadBuffer a v s) := by
  unfold loadBuffer; (repeat' split) <;> simp

@[simp] theorem putElement_keeps (i : Nat) (ws : List Word) (s : State) : Keeps s (putElement i ws s) := by
  unfold putElement; (repeat' split) <;> simp

@[simp] theorem stageWord_keeps (a : Nat) (v : Word) (s : State) : Keeps s (stageWord a v s) := by
  simp only [stageWord]; (repeat' split) <;> simp

@[simp] theorem leaveStage_keeps (s : State) : Keeps s (leaveStage s) := by
  unfold leaveStage; (repeat' split) <;> simp

@[simp] theorem writeWinst_keeps (v : Word) (s : State) : Keeps s (writeWinst v s) := by
  unfold writeWinst; (repeat' split) <;> simp

/-! ## Galley -/

@[simp] theorem latchKey_keeps (s : State) : Keeps s (latchKey s) := by
  unfold latchKey; (repeat' split) <;> simp

@[simp] theorem takeInstruction_keeps (ir : Byte) (s : State) : Keeps s (takeInstruction ir s) := by
  unfold takeInstruction; (repeat' split) <;> simp

@[simp] theorem tapReset_keeps (s : State) : Keeps s (tapReset s) := by simp [tapReset]

@[simp] theorem tapCycle_keeps (c : TckCycle) (s : State) : Keeps s (tapCycle c s) := by
  simp only [tapCycle]; (repeat' split) <;> simp

@[simp] theorem tapReached_keeps (i : TapEvent) (s : State) : Keeps s (tapReached i s) := by
  unfold tapReached; (repeat' split) <;> simp

@[simp] theorem tapUpdate_keeps (u : TapUpdate) (s : State) : Keeps s (tapUpdate u s) :=
  Keeps.trans (forAll_keeps u.scan tapCycle s tapCycle_keeps) (tapReached_keeps u.reached _)

@[simp] theorem endAccess_keeps (res : BitVec 2) (s : State) : Keeps s (endAccess res s) := by
  unfold endAccess; (repeat' split) <;> simp

@[simp] theorem stopLink_keeps (s : State) : Keeps s (stopLink s) := by
  unfold stopLink; (repeat' split) <;> simp

@[simp] theorem startHub_keeps (s : State) : Keeps s (startHub s) := by
  unfold startHub; (repeat' split) <;> simp

@[simp] theorem nextSuperframe_keeps (s : State) : Keeps s (nextSuperframe s) := by
  unfold nextSuperframe; (repeat' split) <;> simp

@[simp] theorem takeFrame_keeps (f : Frame) (s : State) : Keeps s (takeFrame f s) := by
  unfold takeFrame; split <;> simp

@[simp] theorem checked_keeps (id : Nat) (fails : Bool) (no yes : State → State) (s : State)
    (hn : ∀ t, Keeps t (no t)) (hy : ∀ t, Keeps t (yes t)) : Keeps s (checked id fails no yes s) := by
  unfold checked; split
  · exact Keeps.trans (edge_keeps id true s) (hn _)
  · exact Keeps.trans (edge_keeps id false s) (hy _)

@[simp] theorem transmit_keeps (f : Frame) (s : State) : Keeps s (transmit f s) := by
  unfold transmit
  exact Keeps.trans (by simp) (parityRead_keeps 13 { s with gl := { s.gl with tx := if linkPins s then some f else none } })

@[simp] theorem takeRestart_keeps (s : State) : Keeps s (takeRestart s) := by simp [takeRestart]

@[simp] theorem strayFrame_keeps (s : State) : Keeps s (strayFrame s) := by simp [strayFrame]

@[simp] theorem sendBeacon_keeps (s : State) : Keeps s (sendBeacon s) := by
  unfold sendBeacon; (repeat' split) <;> simp

@[simp] theorem hubOrigin_keeps (s0 : State) : Keeps s0 (hubOrigin s0) := by
  unfold hubOrigin
  dsimp only
  split <;> simp


@[simp] theorem takeModes_keeps (s : State) : Keeps s (takeModes s) := by
  simp only [takeModes]; (repeat' split) <;> simp

@[simp] theorem nodeOrigin_keeps (s : State) : Keeps s (nodeOrigin s) := by
  unfold nodeOrigin; (repeat' split) <;> simp

@[simp] theorem superframeOrigin_keeps (s : State) : Keeps s (superframeOrigin s) := by
  simp only [superframeOrigin]; (repeat' split) <;> simp

@[simp] theorem setAlignment_keeps (e : Int) (n : Nat) (s : State) : Keeps s (setAlignment e n s) := by
  unfold setAlignment; (repeat' split) <;> simp

@[simp] theorem alignment_keeps (e : Int) (s : State) : Keeps s (alignment e s) := by
  unfold alignment; (repeat' split) <;> simp

@[simp] theorem takeTiming_keeps (f : Frame) (e : Int) (s : State) : Keeps s (takeTiming f e s) := by
  unfold takeTiming; (repeat' split) <;> simp

@[simp] theorem enterJoin_keeps (s : State) : Keeps s (enterJoin s) := by
  unfold enterJoin; (repeat' split) <;> simp

@[simp] theorem beaconState_keeps (f : Frame) (e : Int) (s : State) : Keeps s (beaconState f e s) := by
  simp only [beaconState]; (repeat' split) <;> simp

@[simp] theorem majorRefused_keeps (s : State) : Keeps s (majorRefused s) := by
  unfold majorRefused; (repeat' split) <;> simp

@[simp] theorem hubLossCleanup_keeps (s : State) : Keeps s (hubLossCleanup s) := by
  unfold hubLossCleanup; (repeat' split) <;> simp

@[simp] theorem backToSearch_keeps (s : State) : Keeps s (backToSearch s) := by
  unfold backToSearch; (repeat' split) <;> simp

@[simp] theorem hubLoss_keeps (s : State) : Keeps s (hubLoss s) := by
  simp only [hubLoss]; (repeat' split) <;> simp

@[simp] theorem beaconMissed_keeps (s : State) : Keeps s (beaconMissed s) := by
  simp only [beaconMissed]; (repeat' split) <;> simp

@[simp] theorem listens_keeps (s : State) : Keeps s (listens s) := by
  simp only [listens]; split <;> simp

@[simp] theorem beaconReceived_keeps (f : Frame) (e : Int) (s0 : State) : Keeps s0 (beaconReceived f e s0) := by
  simp only [beaconReceived]
  split
  · exact takeFrame_keeps f s0
  · refine Keeps.trans (takeFrame_keeps f s0) (checked_keeps _ _ _ _ _ (by simp) fun s1 => ?_)
    split
    · simp
    · split
      · simp
      · refine Keeps.trans ?_ (checked_keeps _ _ _ _ _ (by simp) fun s2 => checked_keeps _ _ _ _ _ (by simp) fun s3 => ?_)
        · simp
        · (repeat' split) <;> simp

@[simp] theorem takeRecords_keeps (s : State) : Keeps s (takeRecords s).2 := by
  unfold takeRecords; (repeat' split) <;> simp

@[simp] theorem sendData_keeps (s : State) : Keeps s (sendData s) := by
  unfold sendData; (repeat' split) <;> simp

@[simp] theorem sendJoin_keeps (s : State) : Keeps s (sendJoin s) := by
  unfold sendJoin; (repeat' split) <;> simp

@[simp] theorem uplinkSend_keeps (s : State) : Keeps s (uplinkSend s) := by
  unfold uplinkSend; (repeat' split) <;> simp

@[simp] theorem rangeStation_keeps (a : Station) (delta : Int) (s : State) : Keeps s (rangeStation a delta s) := by
  unfold rangeStation; (repeat' split) <;> simp

@[simp] theorem confirmAccess_keeps (a : Station) (f : Frame) (s : State) : Keeps s (confirmAccess a f s) := by
  simp only [confirmAccess]; (repeat' split) <;> simp

@[simp] theorem dataUplink_keeps (a : Station) (f : Frame) (delta : Int) (s : State) :
    Keeps s (dataUplink a f delta s) := by
  refine checked_keeps _ _ _ _ _ (by simp) fun t => ?_
  dsimp only
  split <;> simp

@[simp] theorem hubMinor_keeps (s : State) : Keeps s (hubMinor s) := by
  unfold hubMinor; (repeat' split) <;> simp

@[simp] theorem joinUplink_keeps (a : Station) (f : Frame) (delta : Int) (s : State) :
    Keeps s (joinUplink a f delta s) := by
  unfold joinUplink; (repeat' split) <;> simp

@[simp] theorem uplinkArrived_keeps (a : Station) (f : Frame) (delta : Int) (s0 : State) :
    Keeps s0 (uplinkArrived a f delta s0) := by
  simp only [uplinkArrived]
  split
  · simp
  · refine Keeps.trans (Keeps.trans ?_ (takeFrame_keeps f _)) (checked_keeps _ _ _ _ _ (by simp) fun t => ?_)
    · simp
    · (repeat' split) <;> simp

@[simp] theorem nodeLost_keeps (a : Station) (s : State) : Keeps s (nodeLost a s) := by
  unfold nodeLost; (repeat' split) <;> simp

@[simp] theorem nodeSlotEnd_keeps (a : Station) (s : State) : Keeps s (nodeSlotEnd a s) := by
  unfold nodeSlotEnd; (repeat' split) <;> simp

@[simp] theorem remoteGo_keeps (s : State) : Keeps s (remoteGo s) := by
  unfold remoteGo; (repeat' split) <;> simp

@[simp] theorem writeGlra_keeps (v : Word) (s : State) : Keeps s (writeGlra v s) := by
  unfold writeGlra; (repeat' split) <;> simp

@[simp] theorem downlinkSend_keeps (s : State) : Keeps s (downlinkSend s) := by
  unfold downlinkSend; (repeat' split) <;> simp

@[simp] theorem downlinkSlotEnd_keeps (s : State) : Keeps s (downlinkSlotEnd s) := by
  unfold downlinkSlotEnd; (repeat' split) <;> simp

@[simp] theorem downlinkArrived_keeps (f : Frame) (s : State) : Keeps s (downlinkArrived f s) := by
  simp only [downlinkArrived]
  split
  · exact takeFrame_keeps f s
  · refine Keeps.trans (takeFrame_keeps f s) (checked_keeps _ _ _ _ _ (by simp) fun t => ?_)
    (repeat' split) <;> first | (simp; done) | exact checked_keeps _ _ _ _ _ (by simp) (by simp)

@[simp] theorem writeGlctl_keeps (v : Word) (s : State) : Keeps s (writeGlctl v s) := by
  unfold writeGlctl; (repeat' split) <;> simp

/-! ## Registers -/

@[simp] theorem plainRead_keeps (v : Word) (s : State) : Keeps s (plainRead v s).2 := by
  unfold plainRead; (repeat' split) <;> simp

@[simp] theorem read0_keeps (i : Nat) (s : State) : Keeps s (read0 i s).2 := by
  unfold read0; (repeat' split) <;> simp

@[simp] theorem read1_keeps (i : Nat) (s : State) : Keeps s (read1 i s).2 := by
  unfold read1; (repeat' split) <;> simp

@[simp] theorem read2_keeps (i : Nat) (s : State) : Keeps s (read2 i s).2 := by
  unfold read2; (repeat' split) <;> simp

@[simp] theorem read3_keeps (i : Nat) (s : State) : Keeps s (read3 i s).2 := by
  unfold read3; (repeat' split) <;> simp

@[simp] theorem busRead_keeps (a : BitVec 6) (s : State) : Keeps s (busRead a s).2 := by
  unfold busRead; (repeat' split) <;> simp

@[simp] theorem writeClkst_keeps (v : Word) (s : State) : Keeps s (writeClkst v s) := by
  unfold writeClkst; (repeat' split) <;> simp

@[simp] theorem writeExcst_keeps (v : Word) (s : State) : Keeps s (writeExcst v s) := by
  unfold writeExcst; (repeat' split) <;> simp

@[simp] theorem writeFmst_keeps (v : Word) (s : State) : Keeps s (writeFmst v s) := by
  unfold writeFmst; (repeat' split) <;> simp

@[simp] theorem writeSmplvl_keeps (v : Word) (s : State) : Keeps s (writeSmplvl v s) := by
  unfold writeSmplvl; (repeat' split) <;> simp

@[simp] theorem writeScratch_keeps (v : Word) (s : State) : Keeps s (writeScratch v s) := by
  unfold writeScratch; (repeat' split) <;> simp

@[simp] theorem write1_keeps (i : Nat) (v : Word) (s : State) : Keeps s (write1 i v s) := by
  unfold write1; (repeat' split) <;> simp

@[simp] theorem write2_keeps (i : Nat) (v : Word) (s : State) : Keeps s (write2 i v s) := by
  unfold write2; (repeat' split) <;> simp

@[simp] theorem shortCycle_keeps (a : Access) (s : State) : Keeps s (shortCycle a s) := by
  unfold shortCycle; (repeat' split) <;> simp

@[simp] theorem reportAccess_keeps (h : Held) (data : Word) (s : State) : Keeps s (reportAccess h data s) := by
  unfold reportAccess; (repeat' split) <;> simp

end Sys2Proof.Machine
end

