-- ==== Sys2Proof/Laws/Memory.lean ====
section
/-! SUPPORT. Laws/Memory.lean: sparse arrays: what a read gives after a write, and that writes keep the canonical form; the
operations that program the EEPROM array or change the shadow keep MemoryGood. -/

namespace Sys2Proof.Machine

/-! ## One array -/

variable {α : Type} [DecidableEq α] (d : α)

theorem cellRead_of_lt (m : List (Nat × α)) (lo a : Nat) (h : cellsFrom d lo m = true) (ha : a < lo) :
    cellRead d m a = d := by
  induction m generalizing lo with
  | nil => rfl
  | cons x rest ih =>
    obtain ⟨k, v⟩ := x
    simp only [cellsFrom, Bool.and_eq_true, decide_eq_true_eq] at h
    have hk : k ≠ a := by omega
    simp only [cellRead, if_neg hk]
    exact ih (k + 1) h.2 (by omega)

theorem cellsFrom_mono (m : List (Nat × α)) (lo lo' : Nat) (h : cellsFrom d lo m = true) (hl : lo' ≤ lo) :
    cellsFrom d lo' m = true := by
  cases m with
  | nil => rfl
  | cons x rest =>
    obtain ⟨k, v⟩ := x
    simp only [cellsFrom, Bool.and_eq_true, decide_eq_true_eq] at h ⊢
    exact ⟨⟨by omega, h.1.2⟩, h.2⟩

theorem cellWrite_from (m : List (Nat × α)) (lo a : Nat) (v : α) (h : cellsFrom d lo m = true) (ha : lo ≤ a) :
    cellsFrom d lo (cellWrite d m a v) = true := by
  induction m generalizing lo with
  | nil => unfold cellWrite; split <;> simp_all [cellsFrom]
  | cons x rest ih =>
    obtain ⟨k, w⟩ := x
    have h0 := h
    simp only [cellsFrom, Bool.and_eq_true, decide_eq_true_eq] at h
    unfold cellWrite
    split
    · split
      · exact h0
      · simp only [cellsFrom, Bool.and_eq_true, decide_eq_true_eq]
        exact ⟨⟨ha, ‹_›⟩, ⟨by omega, h.1.2⟩, h.2⟩
    · split
      · split
        · exact cellsFrom_mono d rest (k + 1) lo h.2 (by omega)
        · simp only [cellsFrom, Bool.and_eq_true, decide_eq_true_eq]
          exact ⟨⟨ha, ‹_›⟩, by rw [‹a = k›]; exact h.2⟩
      · simp only [cellsFrom, Bool.and_eq_true, decide_eq_true_eq]
        exact ⟨h.1, ih (k + 1) h.2 (by omega)⟩

/-- A write keeps the canonical form. -/
theorem cellWrite_wf (m : List (Nat × α)) (a : Nat) (v : α) (h : Memory.wf d m = true) :
    Memory.wf d (cellWrite d m a v) = true := cellWrite_from d m 0 a v h (Nat.zero_le a)

/-- Writes at consecutive addresses keep the canonical form. -/
theorem cellWrites_wf (vs : List α) (m : List (Nat × α)) (a : Nat) (h : Memory.wf d m = true) :
    Memory.wf d (cellWrites d m a vs) = true := by
  induction vs generalizing m a with
  | nil => exact h
  | cons v vs ih => exact ih _ _ (cellWrite_wf d m a v h)

theorem cellRead_cellWrite_from (m : List (Nat × α)) (lo a b : Nat) (v : α) (h : cellsFrom d lo m = true) :
    cellRead d (cellWrite d m a v) b = if b = a then v else cellRead d m b := by
  induction m generalizing lo with
  | nil =>
    by_cases hv : v = d
    · simp [cellWrite, cellRead, hv]
    · by_cases hb : a = b
      · simp [cellWrite, cellRead, hv, hb]
      · simp [cellWrite, cellRead, hv, hb, Ne.symm hb]
  | cons x rest ih =>
    obtain ⟨k, w⟩ := x
    have h0 := h
    simp only [cellsFrom, Bool.and_eq_true, decide_eq_true_eq] at h
    have hlow := fun c (hc : c < k + 1) => cellRead_of_lt d rest (k + 1) c h.2 hc
    have hi := ih (k + 1) h.2
    unfold cellWrite
    by_cases hak : a < k
    · have hl : cellRead d ((k, w) :: rest) a = d := by
        simp only [cellRead, if_neg (by omega : ¬k = a)]; exact hlow a (by omega)
      by_cases hv : v = d
      · by_cases hb : b = a
        · subst hb; simp [hak, hv, hl]
        · simp [hak, hv, hb]
      · by_cases hb : b = a
        · subst hb; simp [hak, hv, cellRead]
        · simp [hak, hv, hb, cellRead, Ne.symm hb]
    · by_cases hk : a = k
      · subst hk
        by_cases hv : v = d
        · by_cases hb : b = a
          · subst hb; simp [hv, hlow b (by omega)]
          · simp [hv, hb, cellRead, Ne.symm hb]
        · by_cases hb : b = a
          · subst hb; simp [hv, cellRead]
          · simp [hv, hb, cellRead, Ne.symm hb]
      · simp only [hak, hk, if_false, cellRead]
        by_cases hb : k = b
        · subst hb; simp [Ne.symm hk]
        · simp [hb, hi]

/-- A read after a write: the value written at its address, what was there before elsewhere. -/
theorem cellRead_cellWrite (m : List (Nat × α)) (a b : Nat) (v : α) (h : Memory.wf d m = true) :
    cellRead d (cellWrite d m a v) b = if b = a then v else cellRead d m b := cellRead_cellWrite_from d m 0 a b v h

/-- A read after writes at consecutive addresses. -/
theorem cellRead_cellWrites (vs : List α) (m : List (Nat × α)) (a b : Nat) (h : Memory.wf d m = true) :
    cellRead d (cellWrites d m a vs) b = if a ≤ b then vs.getD (b - a) (cellRead d m b) else cellRead d m b := by
  induction vs generalizing m a with
  | nil => simp [cellWrites]
  | cons v vs ih =>
    rw [cellWrites, ih _ _ (cellWrite_wf d m a v h), cellRead_cellWrite d m a b v h]
    by_cases h1 : a + 1 ≤ b
    · have hs : b - a = (b - (a + 1)) + 1 := by omega
      simp [h1, show a ≤ b by omega, show ¬b = a by omega, hs]
    · by_cases h2 : b = a
      · subst h2; simp [h1]
      · simp [h1, h2, show ¬a ≤ b by omega]

/-! ## The memories of the state -/

/-- Memories as they were are as good as they were. -/
theorem MemoryGood.of_keeps {s t : State} (h : MemoryGood s) (k : Keeps s t) : MemoryGood t := by
  obtain ⟨h1, h2, h3, h4, h5⟩ := h
  obtain ⟨k1, k2, k3, k4, _, _, k7⟩ := k
  exact ⟨by rw [k1]; exact h1, by rw [k2]; exact h2, by rw [k3]; exact h3, by rw [k4]; exact h4,
    by rw [k7]; exact h5⟩

/-- Programming changes the array and the flaws of its words only. -/
@[simp] theorem program_frame (a : Nat) (bs : List Byte) (s : State) :
    (program a bs s).sh = s.sh ∧ (program a bs s).pwr = s.pwr ∧ (program a bs s).pending = s.pending ∧
    (program a bs s).nv.running = s.nv.running ∧ (program a bs s).nv.ring = s.nv.ring ∧ (program a bs s).ev = s.ev ∧
    (program a bs s).imp = s.imp ∧ (program a bs s).sl = s.sl ∧ (program a bs s).bkp = s.bkp := by
  simp [program]

theorem program_good (a : Nat) (bs : List Byte) {s : State} (h : MemoryGood s) : MemoryGood (program a bs s) :=
  ⟨cellWrites_wf 0xFF _ s.nv.mem a h.1, h.2⟩

@[simp] theorem programmed_length (s : State) (a : Nat) (bs : List Byte) : (programmed s a bs).length = bs.length := by
  induction bs generalizing a with
  | nil => rfl
  | cons b rest ih => simp [programmed, ih]

theorem programmed_getD (s : State) (a i : Nat) (bs : List Byte) (d : Byte) (h : i < bs.length) :
    (programmed s a bs).getD i d =
      if 0x10000 ≤ a + i then nvByte s (a + i) &&& bs.getD i d else bs.getD i d := by
  induction bs generalizing a i with
  | nil => simp at h
  | cons b rest ih =>
    cases i with
    | zero => simp [programmed]
    | succ i =>
      have h' : i < rest.length := by simpa using h
      have e : a + 1 + i = a + (i + 1) := by omega
      simpa [programmed, e] using ih (a + 1) i h'

/-- R360, R384: a byte of the array after it has been programmed. -/
theorem nvByte_program (a b : Nat) (bs : List Byte) {s : State} (h : MemoryGood s) :
    nvByte (program a bs s) b =
      if a ≤ b ∧ b < a + bs.length then
        (if 0x10000 ≤ b then nvByte s b &&& bs.getD (b - a) 0 else bs.getD (b - a) 0)
      else nvByte s b := by
  have e := cellRead_cellWrites 0xFF (programmed s a bs) s.nv.mem a b h.1
  have e0 : nvByte (program a bs s) b = cellRead 0xFF (cellWrites 0xFF s.nv.mem a (programmed s a bs)) b := rfl
  rw [e0, e]
  by_cases h1 : a ≤ b
  · by_cases h2 : b < a + bs.length
    · have h3 : b - a < bs.length := by omega
      have h4 : a + (b - a) = b := by omega
      rw [if_pos h1, if_pos ⟨h1, h2⟩, programmed_getD s a (b - a) bs _ h3, h4]
      simp [List.getD_eq_getElem?_getD, h3]
    · have h3 : (programmed s a bs).length ≤ b - a := by simp; omega
      rw [if_pos h1, if_neg (by omega), List.getD_eq_getElem?_getD, List.getElem?_eq_none h3]; rfl
  · rw [if_neg h1, if_neg (by omega)]; rfl

theorem storeBank_good (bankB : Bool) (image : List Host.Cell) (n : W32) {s : State} (h : MemoryGood s)
    (hi : Memory.wf (0 : Byte) image = true) : MemoryGood (storeBank bankB image n s) := by
  obtain ⟨h1, h2, h3, h4, _⟩ := h
  unfold storeBank
  split
  · exact ⟨h1, h2, h3, hi, by simp [storeImage]⟩
  · exact ⟨h1, h2, hi, h4, by simp [storeImage]⟩

theorem mergeStaging_good (bs : List Byte) {s : State} (h : MemoryGood s) : MemoryGood (mergeStaging bs s) :=
  MemoryGood.of_keeps
    (s := { s with sh := { s.sh with sram := cellWrites 0 s.sh.sram (regionBase s) bs, staging := none } })
    ⟨h.1, cellWrites_wf 0 bs s.sh.sram _ h.2.1, h.2.2⟩ (raise_keeps _ _)

theorem writeShadow_good (w : Nat) (v : Word) {s : State} (h : MemoryGood s) : MemoryGood (writeShadow w v s) := by
  unfold writeShadow
  dsimp only
  split
  · exact h
  · exact ⟨h.1, cellWrites_wf 0 _ s.sh.sram _ h.2.1, h.2.2⟩

/-! ## Reading the array -/

theorem append_low {n m : Nat} (x : BitVec n) (y : BitVec m) : (x ++ y).setWidth m = y := by
  ext i hi; simp [BitVec.getLsbD_append, hi]

theorem append_high {n m : Nat} (x : BitVec n) (y : BitVec m) : ((x ++ y) >>> m).setWidth n = x := by
  ext i hi; simp [BitVec.getLsbD_append, hi]

/-- R365: where no word has a bit error, a byte reads as it is stored. -/
theorem nvReadByte_clean (s : State) (a : Nat) (h : s.nv.flaws = []) : nvReadByte s a = nvByte s a := by
  have e : nvRead s (a / 2) = (nvStored s (a / 2), 0) := by
    unfold nvRead
    simp [h, flawOf]
  unfold nvReadByte
  simp only [e, nvStored]
  split
  · rw [show 2 * (a / 2) = a by omega]; exact append_low ..
  · rw [show 2 * (a / 2) + 1 = a by omega]; exact append_high ..

end Sys2Proof.Machine
end

