-- ==== Sys2Proof/Laws/Sound.lean ====
section
/-! SUPPORT. Laws/Sound.lean: the operations that do change a memory or the phase of the device keep the canonical form of the
memories and clear bits only in partition I. -/

namespace Sys2Proof.Machine

/-- From memories in canonical form an operation leads to memories in canonical form, and it keeps partition I. -/
def Sound (s t : State) : Prop := MemoryGood s → MemoryGood t ∧ ImprintKept s t

theorem ImprintKept.of_mem {s t : State} (h : t.nv.mem = s.nv.mem) : ImprintKept s t := by
  intro a _; simp [nvByte, h]

theorem ImprintKept.trans {s t u : State} (h1 : ImprintKept s t) (h2 : ImprintKept t u) : ImprintKept s u := by
  intro a ha
  have e1 := h1 a ha
  have e2 := h2 a ha
  rw [← e2, BitVec.and_assoc, e1]

theorem Sound.refl (s : State) : Sound s s := fun h => ⟨h, .of_mem rfl⟩

theorem Sound.trans {s t u : State} (h1 : Sound s t) (h2 : Sound t u) : Sound s u := fun h =>
  ⟨(h2 (h1 h).1).1, (h1 h).2.trans (h2 (h1 h).1).2⟩

theorem Sound.of_keeps {s t : State} (k : Keeps s t) : Sound s t := fun h => ⟨h.of_keeps k, .of_mem k.1⟩

/-- Sound is a matter of the memories alone. -/
theorem Sound.of_mem {s t : State} (h1 : t.nv.mem = s.nv.mem) (h2 : t.sh.sram = s.sh.sram) (h3 : t.sh.bankA = s.sh.bankA)
    (h4 : t.sh.bankB = s.sh.bankB)
    (h5 : storeImage t.nv.running = storeImage s.nv.running ∨ storeImage t.nv.running = none) : Sound s t := by
  intro h
  obtain ⟨g1, g2, g3, g4, g5⟩ := h
  refine ⟨⟨by rw [h1]; exact g1, by rw [h2]; exact g2, by rw [h3]; exact g3, by rw [h4]; exact g4, ?_⟩, .of_mem h1⟩
  intro image hi
  cases h5 with
  | inl e => rw [e] at hi; exact g5 image hi
  | inr e => rw [e] at hi; cases hi

/-- Another state with the same memories, its controller no busier with a store. -/
theorem Sound.upd {s t u : State} (h : Sound s t) (h1 : u.nv.mem = t.nv.mem) (h2 : u.sh.sram = t.sh.sram)
    (h3 : u.sh.bankA = t.sh.bankA) (h4 : u.sh.bankB = t.sh.bankB)
    (h5 : storeImage u.nv.running = storeImage t.nv.running ∨ storeImage u.nv.running = none) : Sound s u :=
  h.trans (.of_mem h1 h2 h3 h4 h5)

theorem Sound.keeps {s t u : State} (h : Sound s t) (k : Keeps t u) : Sound s u := h.trans (.of_keeps k)

theorem when_sound (c : Bool) (f : State → State) (s : State) (h : ∀ t, Sound t (f t)) : Sound s (when c f s) := by
  unfold when; split
  · exact h s
  · exact .refl s

theorem onBus_sound (f : State → State) (s : State) (h : ∀ t, Sound t (f t)) : Sound s (onBus f s) := by
  unfold onBus; split
  · exact Sound.trans (t := { s with bus := { s.bus with localSeen := true, driven := false } })
      (.of_mem rfl rfl rfl rfl (.inl rfl)) (h _)
  · exact .refl s

theorem foldl_sound {α : Type} (xs : List α) (f : State → α → State) (h : ∀ x t, Sound t (f t x)) :
    ∀ s, Sound s (xs.foldl f s) := by
  induction xs with
  | nil => exact .refl
  | cons x xs ih => exact fun s => (h x s).trans (ih _)

theorem forAll_sound {α : Type} (xs : List α) (f : α → State → State) (s : State) (h : ∀ x t, Sound t (f x t)) :
    Sound s (forAll xs f s) := foldl_sound xs _ (fun x t => h x t) s

/-! ## NV controller -/

theorem program_sound (a : Nat) (bs : List Byte) (s : State) : Sound s (program a bs s) := by
  intro h
  refine ⟨program_good a bs h, ?_⟩
  intro b hb
  rw [nvByte_program a b bs h]
  split
  · rw [BitVec.and_comm (nvByte s b) (bs.getD (b - a) 0), BitVec.and_assoc, BitVec.and_self]
  · exact BitVec.and_self

theorem programWords_sound (p : Nat) (ws : List (Nat × Word)) : ∀ s, Sound s (programWords p ws s) := by
  induction ws with
  | nil => exact .refl
  | cons x ws ih => exact fun s => (program_sound _ _ s).trans (ih _)

theorem writeRing_sound (r : Fin 64) (v : BitVec 64) (s : State) : Sound s (writeRing r v s) := by
  unfold writeRing
  split
  · exact .of_keeps (raise_keeps _ _)
  · next j seq _ =>
      dsimp only
      generalize h : program (slotAddr r j) (slotBytes r v seq) s = t
      have ht : Sound s t := h ▸ program_sound _ _ s
      exact ht.trans (.of_mem rfl rfl rfl rfl (.inl rfl))

theorem writeEntry_sound (n : Nat) (e : Entry) (s : State) : Sound s (writeEntry n e s) := by
  unfold writeEntry
  dsimp only
  generalize h : program (0x10000 + 16 * n) (entryBytes n e) s = t
  have ht : Sound s t := h ▸ program_sound _ _ s
  exact ht.trans (.of_mem rfl rfl rfl rfl (.inl rfl))

theorem writeMarker_sound (code : Byte) (s : State) : Sound s (writeMarker code s) := by
  unfold writeMarker
  exact (writeEntry_sound _ _ s).trans ((Sound.of_keeps (advancePosition_keeps 1 _)).trans (.of_keeps (raise_keeps _ _)))

theorem writeEntries_sound (s : State) (es : List Entry) : Sound s (writeEntries s es) := by
  unfold writeEntries
  refine foldl_sound es _ (fun e t => ?_) s
  exact (writeEntry_sound _ _ t).trans ((Sound.of_keeps (advancePosition_keeps 1 _)).trans (.of_keeps (afterEntry_keeps _ _)))

theorem commitDirect_sound (e : Entry) (s : State) : Sound s (commitDirect e s).1 := by
  have key : ∀ u, Sound s u → Sound s (if fate (sessionOpen u) e.code u.imp.next = .takes then
      advancePosition 1 (writeEntry u.imp.next e u) else u) := by
    intro u h
    split
    · exact (h.trans (writeEntry_sound _ _ u)).keeps (advancePosition_keeps 1 _)
    · exact h
  simp only [commitDirect]
  cases markerDue s with
  | none => exact key s (.refl s)
  | some c => exact key _ (writeMarker_sound c s)

theorem refreshDone_sound (p : Nat) (s : State) : Sound s (refreshDone p s) := by
  unfold refreshDone
  refine Sound.trans ?_ (.of_keeps (raise_keeps _ _))
  split
  · exact program_sound _ _ s
  · exact .refl s

/-- The controller is idle again. -/
theorem idle_sound (s : State) : Sound s { s with nv := { s.nv with running := none } } :=
  .of_mem rfl rfl rfl rfl (.inr rfl)

theorem finishOp_sound (op : ArrayOp) (s : State) : Sound s (finishOp op s) := by
  have h0 := idle_sound s
  unfold finishOp
  generalize { s with nv := { s.nv with running := none } } = u at h0 ⊢
  dsimp only
  cases op with
  | hostPage p ws =>
    have h1 := h0.trans ((programWords_sound p ws u).trans (.of_keeps (raise_keeps 0x360 _)))
    dsimp only
    split
    · exact h1.trans (.of_keeps (logNow_keeps _ _ _))
    · exact h1
  | hostRing r v => exact h0.trans ((writeRing_sound r v u).trans (.of_keeps (raise_keeps _ _)))
  | legalPage p bs =>
    exact h0.trans ((program_sound _ bs u).trans (when_sound _ _ _ fun t => .of_keeps (shedStores_keeps t)))
  | sealRing r v job => exact h0.trans ((writeRing_sound r v u).trans (.of_keeps (sealJobDone_keeps _ _)))
  | imprint first n =>
    exact h0.trans (Sound.trans
      (t := { u with imp := { u.imp with queue := u.imp.queue.take first ++ u.imp.queue.drop (first + n) } })
      (.of_mem rfl rfl rfl rfl (.inl rfl)) (writeEntries_sound _ _))
  | marker c => exact h0.trans (writeMarker_sound c u)
  | refresh p => exact h0.trans (refreshDone_sound p u)
  | store => exact .refl s

theorem enterRun_sound (s : State) : Sound s (enterRun s) := by
  have key : ∀ k t, Sound t (reloadCal k (if isLegal k t then modFm k (fun c => { c with edit := c.active }) t else t)) := by
    intro k t
    refine Sound.keeps ?_ (reloadCal_keeps k _)
    split
    · exact .of_keeps (modFm_keeps _ _ _)
    · exact .refl t
  have h1 : Sound s (modeChange { s with pwr := { s.pwr with phase := .run } }) :=
    Sound.keeps (t := { s with pwr := { s.pwr with phase := .run } }) (.of_mem rfl rfl rfl rfl (.inl rfl))
      (modeChange_keeps _)
  have h2 := h1.trans (forAll_sound channels
    (fun k t => reloadCal k (if isLegal k t then modFm k (fun c => { c with edit := c.active }) t else t)) _ key)
  unfold enterRun
  exact h2.upd rfl rfl rfl rfl (.inl rfl)

/-! ## Resets and the power sequences -/

theorem resetFields_sound (cause : BitVec 3) (s : State) : Sound s (resetFields cause s) :=
  .of_mem rfl rfl rfl rfl (.inr rfl)

theorem resetSys_sound (cause : BitVec 3) (s : State) : Sound s (resetSys cause s) :=
  (Sound.of_keeps (flushCheck_keeps s)).trans (resetFields_sound cause _)

theorem arriveReset_sound (cause : BitVec 3) (s : State) : Sound s (arriveReset cause s) := by
  have h := Sound.of_keeps (shedStores_keeps s)
  unfold arriveReset
  dsimp only
  split
  · exact h.upd rfl rfl rfl rfl (.inl rfl)
  · exact h.trans (resetSys_sound cause _)

theorem settleReset_sound (s : State) : Sound s (settleReset s) := by
  unfold settleReset
  split
  · split
    · exact .refl s
    · exact resetSys_sound _ s
  · exact .refl s

theorem softReset_sound (w : Word) (s : State) : Sound s (softReset w s) := by
  unfold softReset; split
  · exact arriveReset_sound 4 s
  · exact .of_keeps (raise_keeps _ _)

/-- A shadow store begins with the SRAM as its image. -/
theorem startStore_sound (cmd : Bool) (s : State) : Sound s (startStore cmd s) := by
  unfold startStore
  have key : ∀ b n, Sound s (startOp (.store cmd b s.sh.sram n) s) := by
    intro b n h
    obtain ⟨h1, h2, h3, h4, _⟩ := h
    exact ⟨⟨h1, h2, h3, h4, fun image hi => by simp [startOp, storeImage] at hi; rw [← hi]; exact h2⟩, .of_mem rfl⟩
  dsimp only
  split <;> exact key _ _

theorem recallShadow_sound (s : State) : Sound s (recallShadow s) := by
  intro h
  have h0 := h
  obtain ⟨h1, h2, h3, h4, h5⟩ := h
  unfold recallShadow
  split
  · rename_i b hb
    refine ⟨⟨h1, ?_, h3, h4, h5⟩, .of_mem rfl⟩
    have : b = s.sh.bankA ∨ b = s.sh.bankB := by
      unfold bestBank at hb
      (repeat' split at hb) <;> simp_all
    cases this with
    | inl e => rw [e]; exact h3
    | inr e => rw [e]; exact h4
  · exact ⟨⟨h1, rfl, h3, h4, h5⟩, .of_mem rfl⟩

theorem powerUp_sound (env : PowerEnv) (cause : BitVec 3) (s : State) : Sound s (powerUp env cause s) := by
  unfold powerUp
  dsimp only
  refine Sound.upd (t := seedLfsr (isSticky 0x3D3 s) (scanImprint (scanRings (recallShadow _))))
    (Sound.keeps (Sound.keeps (Sound.keeps (Sound.trans ?_ (recallShadow_sound _)) (scanRings_keeps _))
      (scanImprint_keeps _)) (seedLfsr_keeps _ _)) rfl rfl rfl rfl (.inl rfl)
  exact .of_mem rfl rfl rfl rfl (.inr rfl)

theorem powerFailStep1_sound (s : State) : Sound s (powerFailStep1 s) := by
  have key : ∀ u, Sound s u → Sound s (flushCheck (keyAtPowerFail (shedStores u))) := fun u h =>
    ((h.keeps (shedStores_keeps _)).keeps (keyAtPowerFail_keeps _)).keeps (flushCheck_keeps _)
  unfold powerFailStep1
  exact key _ (.of_mem rfl rfl rfl rfl (.inl rfl))

theorem powerFailStore_sound (s : State) : Sound s (powerFailStore s) :=
  Sound.trans (.of_mem rfl rfl rfl rfl (.inl rfl)) (startStore_sound false _)

theorem powerFailNext_sound (s : State) : Sound s (powerFailNext s) := by
  unfold powerFailNext; split
  · exact .refl s
  · exact powerFailStore_sound s

theorem powerFail_sound (s : State) : Sound s (powerFail s) := (powerFailStep1_sound s).trans (powerFailNext_sound _)

theorem enterLockup_sound (s : State) : Sound s (enterLockup s) := by
  unfold enterLockup
  exact (Sound.of_keeps (modeChange_keeps s)).upd rfl rfl rfl rfl (.inl rfl)

theorem resetBkp_sound (s : State) : Sound s (resetBkp s) := .of_mem rfl rfl rfl rfl (.inl rfl)

theorem bkpCheck_sound (s : State) : Sound s (bkpCheck s) := by
  unfold bkpCheck; split
  · exact .refl s
  · exact resetBkp_sound s

theorem lockup_sound (s : State) : Sound s (lockup s) := by
  have key : ∀ u, Sound s u → Sound s (bkpCheck (enterLockup u)) := fun u h =>
    (h.trans (enterLockup_sound u)).trans (bkpCheck_sound _)
  unfold lockup
  exact key _ (.of_mem rfl rfl rfl rfl (.inl rfl))

theorem reportAtRelease_sound (op : ArrayOp) (s : State) : Sound s (reportAtRelease op s) := by
  unfold reportAtRelease; split
  · exact .of_mem rfl rfl rfl rfl (.inl rfl)
  · exact .refl s

theorem storeDone_sound (s : State) : Sound s (storeDone s) := by
  unfold storeDone
  split
  · rename_i cmd bankB image number hr
    have h0 := reportAtRelease_sound (.store cmd bankB image number) s
    generalize reportAtRelease (.store cmd bankB image number) s = u at h0 ⊢
    have h1 : Sound s (storeBank bankB image number u) := fun h =>
      ⟨storeBank_good bankB image number (h0 h).1 (h.2.2.2.2 image (by rw [hr]; rfl)),
        (h0 h).2.trans (.of_mem (by unfold storeBank; split <;> rfl))⟩
    have h2 : Sound s (when (decide (number = 1000000)) (raise 0x372)
        (when cmd (raise 0x370) (storeBank bankB image number u))) :=
      h1.trans ((when_sound _ _ _ fun t => .of_keeps (raise_keeps _ t)).trans
        (when_sound _ _ _ fun t => .of_keeps (raise_keeps _ t)))
    dsimp only
    split
    · split
      · exact h2.trans (powerFailNext_sound _)
      · exact h2.trans (lockup_sound _)
    · exact h2
  · exact .refl s

theorem tearWord_sound (w : Nat) (s : State) : Sound s (tearWord w s) := by
  unfold tearWord
  dsimp only
  refine Sound.trans (Sound.of_keeps (nextDraw_keeps s)) ?_
  split
  · exact (program_sound _ _ _).trans (.of_mem rfl rfl rfl rfl (.inl rfl))
  · exact program_sound _ _ _

theorem flipBit_sound (a : Nat) (s : State) : Sound s (flipBit a s) := program_sound _ _ s

theorem spoilRing_sound (r : Fin 64) (j : Fin 16) (s : State) : Sound s (spoilRing r j s) := by
  unfold spoilRing; split
  · exact flipBit_sound _ s
  · exact .refl s

theorem spoilSlot_sound (op : ArrayOp) (s t : State) : Sound t (spoilSlot op s t) := by
  have refreshed : ∀ p, Sound t (forAll (pageSlots p)
      (fun x u => if readSlot x.1 x.2 u = readSlot x.1 x.2 s then u else spoilRing x.1 x.2 u) t) := fun p =>
    forAll_sound _ _ t fun x u => by
      split
      · exact .refl u
      · exact spoilRing_sound _ _ u
  unfold spoilSlot
  dsimp only
  (repeat' split) <;> first
    | exact spoilRing_sound _ _ t
    | exact flipBit_sound _ t
    | exact .refl t
    | exact refreshed _
    | exact (refreshed _).trans (flipBit_sound _ _)

theorem tearOp_sound (s : State) : Sound s (tearOp s) := by
  unfold tearOp
  split
  · exact .refl s
  · rename_i cmd bankB image number hr
    intro h
    have hi := h.2.2.2.2 image (by rw [hr]; rfl)
    obtain ⟨h1, h2, h3, h4, _⟩ := h
    refine ⟨?_, .of_mem rfl⟩
    dsimp only
    split
    · exact ⟨h1, h2, h3, hi, by simp [storeImage]⟩
    · exact ⟨h1, h2, hi, h4, by simp [storeImage]⟩
  · exact ((forAll_sound _ _ s tearWord_sound).trans (spoilSlot_sound _ s _)).upd rfl rfl rfl rfl (.inr rfl)

theorem restoreAll_sound (s : State) : Sound s (restoreAll s) := .of_keeps (restoreAll_keeps s)

theorem release_sound (env : ReleaseEnv) (s : State) : Sound s (release env s) := by
  have h0 : Sound s (releaseFields env s) := .of_mem rfl rfl rfl rfl (.inl rfl)
  have h1 := (h0.trans (restoreAll_sound _)).keeps (startLink_keeps _)
  have h2 := h1.trans (forAll_sound s.pwr.releaseEvents raise _ fun x t => .of_keeps (raise_keeps x t))
  have h3 := (h2.keeps (releaseSignal_keeps _)).trans
    (when_sound (releaseSignal (forAll s.pwr.releaseEvents raise (startLink (restoreAll (releaseFields env s))))).port.test
      (fun t => requestPort t.port.ir true t) _ fun t => .of_keeps (requestPort_keeps _ _ _))
  unfold release
  dsimp only
  split
  · exact h3
  · exact h3.trans (powerFail_sound _)

theorem migrateEntry_sound (e : Entry) (s : State) : Sound s (migrateEntry e s) := by
  have h := commitDirect_sound e s
  unfold migrateEntry
  dsimp only
  split
  · exact h.upd rfl rfl rfl rfl (.inl rfl)
  · exact h.upd rfl rfl rfl rfl (.inl rfl)
  · exact Sound.keeps (h.upd rfl rfl rfl rfl (.inl rfl)) (notWritten_keeps _ _)

theorem commitOrDrop_sound (e : Entry) (s : State) : Sound s (commitOrDrop e s) :=
  (commitDirect_sound e s).keeps (notWritten_keeps _ _)

theorem migrationEntry_sound (s : State) : Sound s (migrationEntry s) := by
  unfold migrationEntry
  dsimp only
  split
  · exact .refl s
  · split
    · exact Sound.keeps ((commitDirect_sound _ s).upd rfl rfl rfl rfl (.inl rfl)) (raise_keeps _ _)
    · exact (commitDirect_sound _ s).keeps (notWritten_keeps _ _)

theorem patchEntry_sound (s : State) : Sound s (patchEntry s) := by
  unfold patchEntry
  split
  · exact .refl s
  · split
    · exact .refl s
    · exact commitOrDrop_sound _ s

theorem powerUpEntry_sound (s : State) : Sound s (powerUpEntry s) := by
  unfold powerUpEntry
  dsimp only
  exact (commitOrDrop_sound _ s).trans (.of_mem rfl rfl rfl rfl (.inl rfl))

theorem migrateEntries_sound (n : Nat) (s : State) : Sound s (migrateEntries n s) := by
  have key : ∀ u, Sound s u → Sound s (forAll (s.bkp.buffer.take n) migrateEntry u) := fun u h =>
    h.trans (forAll_sound _ _ u migrateEntry_sound)
  have h := key { s with bkp := { s.bkp with buffer := [] } } (.of_mem rfl rfl rfl rfl (.inl rfl))
  unfold migrateEntries
  exact h.upd rfl rfl rfl rfl (.inl rfl)

theorem migrate_sound (n : Nat) (s : State) : Sound s (migrate n s) := by
  have h := migrateEntries_sound n s
  unfold migrate
  dsimp only
  split
  · exact ((h.trans (migrationEntry_sound _)).trans (patchEntry_sound _)).trans (powerUpEntry_sound _)
  · exact h

theorem finishMigration_sound (s : State) : Sound s (finishMigration s) := by
  unfold finishMigration; split
  · exact .refl s
  · exact (migrateEntries_sound _ s).trans (migrationEntry_sound _)

theorem recoverCounter_sound (s : State) : Sound s (recoverCounter s) := by
  unfold recoverCounter
  dsimp only
  refine Sound.trans (t := if ((ringValue 0 s).setWidth 32 : W32).toNat < (s.imp.last23.getD 0).toNat then
      writeRing 0 ((s.imp.last23.getD 0).setWidth 64) s else s) ?_ (.of_mem rfl rfl rfl rfl (.inl rfl))
  split
  · exact writeRing_sound _ _ s
  · exact .refl s

theorem recoverLockout_sound (s : State) : Sound s (recoverLockout s) := by
  have h : Sound s { s with pwr := { s.pwr with rtcLost := false } } := .of_mem rfl rfl rfl rfl (.inl rfl)
  unfold recoverLockout
  dsimp only
  split
  · exact h.trans (writeRing_sound _ _ _)
  · exact h

theorem answerDigest_sound (s : State) : Sound s (answerDigest s) := by
  have h0 : Sound s { s with sl := { s.sl with digest := legalDigest s } } := .of_mem rfl rfl rfl rfl (.inl rfl)
  unfold answerDigest
  generalize { s with sl := { s.sl with digest := legalDigest s } } = t at h0 ⊢
  have h := h0.keeps (readLegal_keeps t)
  generalize readLegal t = u at h ⊢
  dsimp only
  split
  · have h1 := h.trans (commitOrDrop_sound (nowEntry 0x11 (digestData u) u) u)
    generalize commitOrDrop (nowEntry 0x11 (digestData u) u) u = v at h1 ⊢
    have h2 := h1.trans (writeRing_sound 1 (closedRecord v) v)
    generalize writeRing 1 (closedRecord v) v = w at h2 ⊢
    split
    · exact h2
    · have h3 : Sound s { w with sl := { w.sl with digerr := false }, key := clearVoid w.key } :=
        h2.upd rfl rfl rfl rfl (.inl rfl)
      exact (h3.keeps (raise_keeps _ _)).trans (finishMigration_sound _)
  · split
    · split
      · exact h
      · exact Sound.keeps (h.upd rfl rfl rfl rfl (.inl rfl)) (raise_keeps _ _)
    · exact h

theorem startupDone_sound (s : State) : Sound s (startupDone s) := by
  have h := (enterRun_sound s).keeps (raise_keeps 0 _)
  unfold startupDone
  exact h.upd rfl rfl rfl rfl (.inl rfl)

/-! ## Units -/

theorem shadowStore_sound (s : State) : Sound s (shadowStore s) := by
  unfold shadowStore; split
  · exact startStore_sound true s
  · exact .of_keeps (raise_keeps _ _)

theorem writeNvctl_sound (v : Word) (s : State) : Sound s (writeNvctl v s) := by
  unfold writeNvctl
  split
  · exact .of_keeps (slugWord_keeps v s)
  · dsimp only
    refine Sound.trans (t := { s with nv := { s.nv with readWords := none, cnt := 0 } }) (.of_mem rfl rfl rfl rfl (.inl rfl)) ?_
    split
    · exact .of_keeps (nvCommit_keeps _)
    · exact .of_keeps (emptyBuffer_keeps _)
    · exact shadowStore_sound _
    · exact .of_keeps (slugOpen_keeps _ _)
    · exact .of_keeps (slugRead_keeps _ _)
    · exact .of_keeps (raise_keeps _ _)

theorem opEndedInPowerFail_sound (s : State) : Sound s (opEndedInPowerFail s) := by
  have key : ∀ u, Sound s u → Sound s (powerFailNext u) := fun u h => h.trans (powerFailNext_sound u)
  unfold opEndedInPowerFail
  exact key _ (Sound.upd (.of_keeps (keyInPowerFail_keeps s)) rfl rfl rfl rfl (.inl rfl))

theorem operationDone_sound (s : State) : Sound s (operationDone s) := by
  unfold operationDone
  split
  · exact .refl s
  · exact .refl s
  · have h := (reportAtRelease_sound ‹ArrayOp› s).trans (finishOp_sound ‹ArrayOp› _)
    dsimp only
    split
    · exact h.trans (opEndedInPowerFail_sound _)
    · exact h

theorem refreshFallsDue_sound (m : MarginReading) (s : State) : Sound s (refreshFallsDue m s) :=
  .of_mem rfl rfl rfl rfl (.inl rfl)

theorem mergeStaging_sound (bs : List Byte) (s : State) : Sound s (mergeStaging bs s) := fun h =>
  ⟨mergeStaging_good bs h, .of_mem (by unfold mergeStaging; exact (raise_keeps _ _).1)⟩

theorem txnClose_sound (bs : List Byte) (s : State) : Sound s (txnClose bs s) := by
  unfold txnClose
  split
  · exact mergeStaging_sound bs s
  · split
    · exact .of_mem rfl rfl rfl rfl (.inl rfl)
    · exact .of_keeps (refuseTxn_keeps _ _)

theorem txnCommand_sound (v : Word) (s : State) : Sound s (txnCommand v s) := by
  unfold txnCommand
  dsimp only
  split
  · exact .refl s
  · split
    · exact .of_keeps (refuseTxn_keeps _ _)
    · split
      · split
        · exact .of_keeps (txnOpen_keeps _)
        · exact .of_keeps (refuseTxn_keeps _ _)
      · split
        · exact .of_keeps (refuseTxn_keeps _ _)
        · split
          · exact txnClose_sound _ s
          · exact .of_keeps (txnAbort_keeps _)

theorem writeTxnctl_sound (v : Word) (s : State) : Sound s (writeTxnctl v s) := by
  have key : ∀ u, Sound s u → Sound s (txnCommand v u) := fun u h => h.trans (txnCommand_sound v u)
  unfold writeTxnctl
  exact key _ (.of_mem rfl rfl rfl rfl (.inl rfl))

theorem signDone_sound (s : State) : Sound s (signDone s) := by
  have key : ∀ bs u, Sound s u → Sound s (raise 0x375 (mergeStaging bs u)) := fun bs u h =>
    (h.trans (mergeStaging_sound bs u)).keeps (raise_keeps _ _)
  unfold signDone
  split
  · split
    · exact key _ _ (.of_mem rfl rfl rfl rfl (.inl rfl))
    · exact .refl s
  · exact .refl s

theorem slotWritten_sound (s : State) : Sound s (slotWritten s) := by
  unfold slotWritten
  split
  · split
    · exact .of_keeps (writeSlot_keeps _ _ _)
    · exact .refl s
  · exact .refl s

theorem enterMakeready_sound (s : State) : Sound s (enterMakeready s) := by
  have key : ∀ code data u, Sound s u → Sound s (logNow code data (raise 0x11 u)) := fun code data u h =>
    (h.keeps (raise_keeps _ _)).keeps (logNow_keeps _ _ _)
  have mode : ∀ u, Sound s u → Sound s (modeChange u) := fun u h => h.keeps (modeChange_keeps _)
  unfold enterMakeready
  split
  · split
    · exact key _ _ _ (mode _ (.of_mem rfl rfl rfl rfl (.inl rfl)))
    · exact .refl s
  · exact .refl s

theorem closingDigest_sound (s : State) : Sound s (closingDigest s) := by
  have h : Sound s { s with sl := { s.sl with digest := legalDigest s, closing := .logging } } :=
    .of_mem rfl rfl rfl rfl (.inl rfl)
  unfold closingDigest
  generalize { s with sl := { s.sl with digest := legalDigest s, closing := .logging } } = t at h ⊢
  have h1 := h.keeps (readLegal_keeps t)
  generalize readLegal t = u at h1 ⊢
  exact h1.keeps (queueEntry_keeps (nowEntry 0x11 (digestData u) u) u)

theorem closingComplete_sound (s : State) : Sound s (closingComplete s) := by
  have key : ∀ u, Sound s u → Sound s (raise 0x13 (enterRun u)) := fun u h =>
    (h.trans (enterRun_sound u)).keeps (raise_keeps _ _)
  unfold closingComplete
  split
  · exact key _ (.of_mem rfl rfl rfl rfl (.inl rfl))
  · exact .refl s

theorem writeShadow_sound (w : Nat) (v : Word) (s : State) : Sound s (writeShadow w v s) := fun h =>
  ⟨writeShadow_good w v h, .of_mem (by unfold writeShadow; dsimp only; split <;> rfl)⟩

theorem putSingle_sound (a : Nat) (v : Word) (s : State) : Sound s (putSingle a v s) := by
  unfold putSingle
  split
  · exact .of_mem rfl rfl rfl rfl (.inl rfl)
  · exact .of_mem rfl rfl rfl rfl (.inl rfl)
  · exact .of_mem rfl rfl rfl rfl (.inl rfl)
  · exact .of_keeps (loadBuffer_keeps _ _ _)
  · exact writeShadow_sound _ _ _
  · exact .refl s

theorem windatWrite_sound (v : Word) (s : State) : Sound s (windatWrite v s) := by
  unfold windatWrite
  dsimp only
  refine (Sound.of_keeps (leaveStage_keeps s)).trans (Sound.trans ?_ (.of_keeps (advanceWindow_keeps _)))
  split
  · exact .of_keeps (outOfRange_keeps _)
  · split
    · exact (Sound.of_keeps (refuseWindow_keeps _ _)).trans (when_sound _ _ _ fun t => .of_keeps (raise_keeps _ t))
    · split
      · exact putSingle_sound _ _ _
      · exact .of_keeps (stageWord_keeps _ _ _)

theorem arrayWrite_sound (arrays : List (BitVec 4)) (v : Word) (s : State) : Sound s (arrayWrite arrays v s) :=
  when_sound _ _ _ fun t => onBus_sound _ t (windatWrite_sound v)

theorem writeSysctl_sound (v : Word) (s : State) : Sound s (writeSysctl v s) := by
  unfold writeSysctl
  split
  · exact softReset_sound v s
  · split
    · exact .of_keeps (raise_keeps _ _)
    · exact .of_keeps (rwmWrite_keeps _ _ _ _ _ fun t => setSysctl_keeps v t)

theorem write0_sound (i : Nat) (v : Word) (s : State) : Sound s (write0 i v s) := by
  unfold write0
  split
  · exact .of_keeps (writeSealst_keeps v s)
  · exact writeSysctl_sound v s
  · exact .of_keeps (heartbeat_keeps v s)
  · exact .of_keeps (writeClkst_keeps v s)
  · exact .of_keeps (writeWinsel_keeps v s)
  · exact .of_keeps (writeWinadr_keeps _ v s)
  · exact .of_keeps (writeWinadr_keeps _ v s)
  · exact windatWrite_sound v s
  · exact .of_keeps (writeWinst_keeps v s)
  · exact .of_keeps (writeEvsum_keeps _ v s)
  · exact .of_keeps (writeEvsum_keeps _ v s)
  · exact .of_keeps (writeEvsum_keeps _ v s)
  · exact .refl s

theorem write3_sound (i : Nat) (v : Word) (s : State) : Sound s (write3 i v s) := by
  unfold write3
  split
  · exact .of_keeps (writeFkst_keeps v s)
  · exact .of_keeps (writeFkresp_keeps v s)
  · exact writeNvctl_sound v s
  · exact .of_keeps (writeNvprot_keeps v s)
  · exact writeTxnctl_sound v s
  · exact .of_keeps (writeImpctl_keeps v s)
  · exact .of_keeps (stageRtc_keeps _ v s)
  · exact .of_keeps (stageRtc_keeps _ v s)
  · exact .of_keeps (setRtc_keeps v s)
  · exact .of_keeps (writeSealkey_keeps v s)
  · exact .of_keeps (writeKeyst_keeps v s)
  · exact .of_keeps (writeCompst_keeps v s)
  · exact .of_keeps (writeScratch_keeps v s)
  · exact .refl s

theorem busWrite_sound (a : BitVec 6) (v : Word) (s : State) : Sound s (busWrite a v s) := by
  unfold busWrite
  dsimp only
  split
  · exact write0_sound _ v s
  · exact .of_keeps (write1_keeps _ v s)
  · exact .of_keeps (write2_keeps _ v s)
  · exact write3_sound _ v s

theorem remoteAccess_sound (x : Word × State) (p : Word × Word) : Sound x.2 (remoteAccess x p).2 := by
  unfold remoteAccess
  dsimp only
  split
  · exact .refl _
  · split
    · exact .of_keeps (busRead_keeps _ _)
    · exact busWrite_sound _ _ _

theorem remoteAccesses_sound (ps : List (Word × Word)) : ∀ x : Word × State, Sound x.2 (ps.foldl remoteAccess x).2 := by
  induction ps with
  | nil => exact fun x => .refl _
  | cons p ps ih => exact fun x => (remoteAccess_sound x p).trans (ih _)

theorem downlinkExecute_sound (s : State) : Sound s (downlinkExecute s) := by
  unfold downlinkExecute
  split
  · exact .refl s
  · dsimp only
    rename_i h hh
    refine Sound.trans (t := { s with gl := { s.gl with held := none } }) (.of_mem rfl rfl rfl rfl (.inl rfl)) ?_
    split
    · exact (Sound.of_keeps (reportAccess_keeps _ _ _)).trans (.of_keeps (raise_keeps _ _))
    · refine (remoteAccesses_sound h.pairs (0, _)).trans (when_sound _ _ _ fun t => ?_)
      exact (Sound.of_keeps (reportAccess_keeps _ _ _)).trans (.of_keeps (raise_keeps _ _))

end Sys2Proof.Machine
end

