-- ==== Sys2Proof/Laws/State.lean ====
section
/-! SUPPORT. Laws/State.lean: what each update of the state and each shared operation changes, and that it changes nothing
else. -/

namespace Sys2Proof.Machine

/-! ## One channel, one station -/

@[simp] theorem setCh_get {α : Type} {n : Nat} (v : Vector α n) (k : Fin n) (f : α → α) :
    (setCh v k f).get k = f (v.get k) := by
  show (v.set k.val _ k.isLt)[k.val] = _
  simp

theorem setCh_get_ne {α : Type} {n : Nat} (v : Vector α n) (k j : Fin n) (f : α → α) (h : j ≠ k) :
    (setCh v k f).get j = v.get j := by
  have h' : k.val ≠ j.val := fun e => h (Fin.ext e.symm)
  show (v.set k.val _ k.isLt)[j.val] = v[j.val]
  simp [h']

@[simp] theorem modFe_fe (k : Chan) (f : FeChan → FeChan) (s : State) :
    (modFe k f s).fe = { s.fe with ch := setCh s.fe.ch k f } := rfl

@[simp] theorem modFe_frame (k : Chan) (f : FeChan → FeChan) (s : State) :
    (modFe k f s).pwr = s.pwr ∧ (modFe k f s).sys = s.sys ∧ (modFe k f s).bus = s.bus ∧ (modFe k f s).ev = s.ev ∧
    (modFe k f s).sl = s.sl ∧ (modFe k f s).nv = s.nv ∧ (modFe k f s).imp = s.imp ∧ (modFe k f s).sh = s.sh ∧
    (modFe k f s).bkp = s.bkp ∧ (modFe k f s).key = s.key ∧ (modFe k f s).fk = s.fk ∧ (modFe k f s).port = s.port ∧
    (modFe k f s).fm = s.fm ∧ (modFe k f s).cs = s.cs ∧ (modFe k f s).tone = s.tone ∧ (modFe k f s).cal = s.cal ∧
    (modFe k f s).kern = s.kern ∧ (modFe k f s).gl = s.gl ∧ (modFe k f s).draws = s.draws ∧
    (modFe k f s).mark = s.mark ∧ (modFe k f s).pending = s.pending := by
  simp [modFe]

@[simp] theorem modFm_fm (k : Chan) (f : FmChan → FmChan) (s : State) :
    (modFm k f s).fm = { s.fm with ch := setCh s.fm.ch k f } := rfl

@[simp] theorem modFm_frame (k : Chan) (f : FmChan → FmChan) (s : State) :
    (modFm k f s).pwr = s.pwr ∧ (modFm k f s).sys = s.sys ∧ (modFm k f s).bus = s.bus ∧ (modFm k f s).ev = s.ev ∧
    (modFm k f s).sl = s.sl ∧ (modFm k f s).nv = s.nv ∧ (modFm k f s).imp = s.imp ∧ (modFm k f s).sh = s.sh ∧
    (modFm k f s).bkp = s.bkp ∧ (modFm k f s).key = s.key ∧ (modFm k f s).fk = s.fk ∧ (modFm k f s).port = s.port ∧
    (modFm k f s).fe = s.fe ∧ (modFm k f s).cs = s.cs ∧ (modFm k f s).tone = s.tone ∧ (modFm k f s).cal = s.cal ∧
    (modFm k f s).kern = s.kern ∧ (modFm k f s).gl = s.gl ∧ (modFm k f s).draws = s.draws ∧
    (modFm k f s).mark = s.mark ∧ (modFm k f s).pending = s.pending := by
  simp [modFm]

@[simp] theorem modCs_cs (k : Chan) (f : CaseChan → CaseChan) (s : State) :
    (modCs k f s).cs = { s.cs with ch := setCh s.cs.ch k f } := rfl

@[simp] theorem modCs_frame (k : Chan) (f : CaseChan → CaseChan) (s : State) :
    (modCs k f s).pwr = s.pwr ∧ (modCs k f s).sys = s.sys ∧ (modCs k f s).bus = s.bus ∧ (modCs k f s).ev = s.ev ∧
    (modCs k f s).sl = s.sl ∧ (modCs k f s).nv = s.nv ∧ (modCs k f s).imp = s.imp ∧ (modCs k f s).sh = s.sh ∧
    (modCs k f s).bkp = s.bkp ∧ (modCs k f s).key = s.key ∧ (modCs k f s).fk = s.fk ∧ (modCs k f s).port = s.port ∧
    (modCs k f s).fe = s.fe ∧ (modCs k f s).fm = s.fm ∧ (modCs k f s).tone = s.tone ∧ (modCs k f s).cal = s.cal ∧
    (modCs k f s).kern = s.kern ∧ (modCs k f s).gl = s.gl ∧ (modCs k f s).draws = s.draws ∧
    (modCs k f s).mark = s.mark ∧ (modCs k f s).pending = s.pending := by
  simp [modCs]

@[simp] theorem modCal_cal (k : Chan) (f : CalChan → CalChan) (s : State) :
    (modCal k f s).cal = { s.cal with ch := setCh s.cal.ch k f } := rfl

@[simp] theorem modCal_frame (k : Chan) (f : CalChan → CalChan) (s : State) :
    (modCal k f s).pwr = s.pwr ∧ (modCal k f s).sys = s.sys ∧ (modCal k f s).bus = s.bus ∧ (modCal k f s).ev = s.ev ∧
    (modCal k f s).sl = s.sl ∧ (modCal k f s).nv = s.nv ∧ (modCal k f s).imp = s.imp ∧ (modCal k f s).sh = s.sh ∧
    (modCal k f s).bkp = s.bkp ∧ (modCal k f s).key = s.key ∧ (modCal k f s).fk = s.fk ∧
    (modCal k f s).port = s.port ∧ (modCal k f s).fe = s.fe ∧ (modCal k f s).fm = s.fm ∧ (modCal k f s).cs = s.cs ∧
    (modCal k f s).tone = s.tone ∧ (modCal k f s).kern = s.kern ∧ (modCal k f s).gl = s.gl ∧
    (modCal k f s).draws = s.draws ∧ (modCal k f s).mark = s.mark ∧
    (modCal k f s).pending = s.pending := by
  simp [modCal]

@[simp] theorem modKern_kern (k : Chan) (f : KernChan → KernChan) (s : State) :
    (modKern k f s).kern = { s.kern with ch := setCh s.kern.ch k f } := rfl

@[simp] theorem modKern_frame (k : Chan) (f : KernChan → KernChan) (s : State) :
    (modKern k f s).pwr = s.pwr ∧ (modKern k f s).sys = s.sys ∧ (modKern k f s).bus = s.bus ∧
    (modKern k f s).ev = s.ev ∧ (modKern k f s).sl = s.sl ∧ (modKern k f s).nv = s.nv ∧ (modKern k f s).imp = s.imp ∧
    (modKern k f s).sh = s.sh ∧ (modKern k f s).bkp = s.bkp ∧ (modKern k f s).key = s.key ∧
    (modKern k f s).fk = s.fk ∧ (modKern k f s).port = s.port ∧ (modKern k f s).fe = s.fe ∧
    (modKern k f s).fm = s.fm ∧ (modKern k f s).cs = s.cs ∧ (modKern k f s).tone = s.tone ∧
    (modKern k f s).cal = s.cal ∧ (modKern k f s).gl = s.gl ∧ (modKern k f s).draws = s.draws ∧
    (modKern k f s).mark = s.mark ∧ (modKern k f s).pending = s.pending := by
  simp [modKern]

@[simp] theorem modNode_gl (a : Station) (f : NodeRec → NodeRec) (s : State) :
    (modNode a f s).gl = { s.gl with node := setCh s.gl.node a f } := rfl

@[simp] theorem modNode_frame (a : Station) (f : NodeRec → NodeRec) (s : State) :
    (modNode a f s).pwr = s.pwr ∧ (modNode a f s).sys = s.sys ∧ (modNode a f s).bus = s.bus ∧
    (modNode a f s).ev = s.ev ∧ (modNode a f s).sl = s.sl ∧ (modNode a f s).nv = s.nv ∧ (modNode a f s).imp = s.imp ∧
    (modNode a f s).sh = s.sh ∧ (modNode a f s).bkp = s.bkp ∧ (modNode a f s).key = s.key ∧
    (modNode a f s).fk = s.fk ∧ (modNode a f s).port = s.port ∧ (modNode a f s).fe = s.fe ∧
    (modNode a f s).fm = s.fm ∧ (modNode a f s).cs = s.cs ∧ (modNode a f s).tone = s.tone ∧
    (modNode a f s).cal = s.cal ∧ (modNode a f s).kern = s.kern ∧ (modNode a f s).draws = s.draws ∧
    (modNode a f s).mark = s.mark ∧ (modNode a f s).pending = s.pending := by
  simp [modNode]

@[simp] theorem modSrc_fk (i : Fin 11) (f : Source → Source) (s : State) :
    (modSrc i f s).fk = { s.fk with src := setCh s.fk.src i f } := rfl

@[simp] theorem modSrc_frame (i : Fin 11) (f : Source → Source) (s : State) :
    (modSrc i f s).pwr = s.pwr ∧ (modSrc i f s).sys = s.sys ∧ (modSrc i f s).bus = s.bus ∧ (modSrc i f s).ev = s.ev ∧
    (modSrc i f s).sl = s.sl ∧ (modSrc i f s).nv = s.nv ∧ (modSrc i f s).imp = s.imp ∧ (modSrc i f s).sh = s.sh ∧
    (modSrc i f s).bkp = s.bkp ∧ (modSrc i f s).key = s.key ∧ (modSrc i f s).port = s.port ∧
    (modSrc i f s).fe = s.fe ∧ (modSrc i f s).fm = s.fm ∧ (modSrc i f s).cs = s.cs ∧ (modSrc i f s).tone = s.tone ∧
    (modSrc i f s).cal = s.cal ∧ (modSrc i f s).kern = s.kern ∧ (modSrc i f s).gl = s.gl ∧
    (modSrc i f s).draws = s.draws ∧ (modSrc i f s).mark = s.mark ∧
    (modSrc i f s).pending = s.pending := by
  simp [modSrc]

/-! ## Events -/

/-- R137, R156: what raising an event does to the event unit. -/
theorem raise_ev (id : Nat) (s : State) :
    (raise id s).ev =
      if sysLive s then
        (if alreadyInjected id s then { s.ev with sticky := setBit s.ev.sticky id true } else occur id s.ev)
      else s.ev := by
  unfold raise; split <;> rfl

/-- R137: where the st of the command before has injected nothing, an event is raised whenever SYS runs. -/
theorem raise_ev_plain (id : Nat) (s : State) (h : injects s.mark = false) :
    (raise id s).ev = if sysLive s then occur id s.ev else s.ev := by
  simp [raise_ev, alreadyInjected, h]

@[simp] theorem raise_frame (id : Nat) (s : State) :
    (raise id s).pwr = s.pwr ∧ (raise id s).sys = s.sys ∧ (raise id s).bus = s.bus ∧ (raise id s).sl = s.sl ∧
    (raise id s).nv = s.nv ∧ (raise id s).imp = s.imp ∧ (raise id s).sh = s.sh ∧ (raise id s).bkp = s.bkp ∧
    (raise id s).key = s.key ∧ (raise id s).fk = s.fk ∧ (raise id s).port = s.port ∧ (raise id s).fe = s.fe ∧
    (raise id s).fm = s.fm ∧ (raise id s).cs = s.cs ∧ (raise id s).tone = s.tone ∧ (raise id s).cal = s.cal ∧
    (raise id s).kern = s.kern ∧ (raise id s).gl = s.gl ∧ (raise id s).draws = s.draws ∧
    (raise id s).mark = s.mark ∧ (raise id s).pending = s.pending := by
  unfold raise; split <;> simp

@[simp] theorem raise_sysLive (id : Nat) (s : State) : sysLive (raise id s) = sysLive s := by simp [sysLive]

@[simp] theorem occurOnce_frame (id : Nat) (e : Events) :
    (occurOnce id e).1.enable = e.enable ∧ (occurOnce id e).1.held = e.held ∧ (occurOnce id e).1.legal = e.legal ∧
    (occurOnce id e).1.sumsel = e.sumsel ∧ (occurOnce id e).1.alen = e.alen ∧ (occurOnce id e).1.inten = e.inten ∧
    (occurOnce id e).1.area = e.area ∧ (occurOnce id e).1.armed = e.armed ∧ (occurOnce id e).1.act = e.act ∧
    (occurOnce id e).1.miss = e.miss ∧ (occurOnce id e).1.ref = e.ref ∧ (occurOnce id e).1.abrt = e.abrt ∧
    (occurOnce id e).1.evid = e.evid ∧ (occurOnce id e).1.evaluated = e.evaluated ∧
    (occurOnce id e).1.answered = e.answered ∧ (occurOnce id e).1.injLive = e.injLive ∧
    (occurOnce id e).1.injMode = e.injMode := by
  simp [occurOnce]

/-- R135: an occurrence changes sticky bits, counters and overflow flags only. -/
@[simp] theorem occur_frame (id : Nat) (e : Events) :
    (occur id e).enable = e.enable ∧ (occur id e).held = e.held ∧ (occur id e).legal = e.legal ∧
    (occur id e).sumsel = e.sumsel ∧ (occur id e).alen = e.alen ∧ (occur id e).inten = e.inten ∧
    (occur id e).area = e.area ∧ (occur id e).armed = e.armed ∧ (occur id e).act = e.act ∧
    (occur id e).miss = e.miss ∧ (occur id e).ref = e.ref ∧ (occur id e).abrt = e.abrt ∧
    (occur id e).evid = e.evid ∧ (occur id e).evaluated = e.evaluated ∧ (occur id e).answered = e.answered ∧
    (occur id e).injLive = e.injLive ∧ (occur id e).injMode = e.injMode := by
  unfold occur; dsimp only; (repeat' split) <;> simp

theorem bitOf_setBit_true {w : Nat} (v : BitVec w) (i j : Nat) :
    bitOf (setBit v i true) j = (bitOf v j || (decide (j < w) && decide (i = j))) := by
  simp only [setBit, bitOf, if_true, BitVec.getLsbD_or, BitVec.getLsbD_twoPow]
  by_cases h : i = j
  · subst h; rfl
  · simp [h]

theorem occurOnce_sticky (id i : Nat) (e : Events) :
    bitOf (occurOnce id e).1.sticky i = (bitOf e.sticky i || (decide (i < 1024) && decide (id = i))) := by
  simp only [occurOnce]; exact bitOf_setBit_true e.sticky id i

/-- R135: an event sets its sticky bit. -/
theorem occur_sticky_self (id : Nat) (e : Events) (h : id < 1024) : bitOf (occur id e).sticky id = true := by
  have h1 : bitOf (occurOnce id e).1.sticky id = true := by rw [occurOnce_sticky]; simp [h]
  have h2 : ∀ e' : Events, bitOf e'.sticky id = true → bitOf (occurOnce 0x2A e').1.sticky id = true := by
    intro e' he; rw [occurOnce_sticky, he]; rfl
  unfold occur; dsimp only
  (repeat' split)
  · exact h2 _ (h2 _ h1)
  · exact h2 _ h1
  · exact h1

/-- An event clears no sticky bit. -/
theorem occur_sticky_mono (id i : Nat) (e : Events) (h : bitOf e.sticky i = true) : bitOf (occur id e).sticky i = true := by
  have h2 : ∀ (j : Nat) (e' : Events), bitOf e'.sticky i = true → bitOf (occurOnce j e').1.sticky i = true := by
    intro j e' he; rw [occurOnce_sticky, he]; rfl
  unfold occur; dsimp only
  (repeat' split)
  · exact h2 _ _ (h2 _ _ (h2 _ _ h))
  · exact h2 _ _ (h2 _ _ h)
  · exact h2 _ _ h

/-- R135, R137: a raised event sets its sticky bit while SYS runs. -/
theorem raise_sticky_self (id : Nat) (s : State) (h : id < 1024) (hs : sysLive s = true) :
    isSticky id (raise id s) = true := by
  unfold isSticky; rw [raise_ev, hs, if_pos rfl]; split
  · simp [bitOf_setBit_true, h]
  · exact occur_sticky_self id s.ev h

theorem raise_sticky_mono (id i : Nat) (s : State) (h : isSticky i s = true) : isSticky i (raise id s) = true := by
  unfold isSticky at *; rw [raise_ev]; split
  · split
    · simp [bitOf_setBit_true, h]
    · exact occur_sticky_mono id i s.ev h
  · exact h

/-! ## Detectors, the mailbox and the log -/

@[simp] theorem detect_frame (id : Nat) (cond : Bool) (s : State) :
    (detect id cond s).pwr = s.pwr ∧ (detect id cond s).sys = s.sys ∧ (detect id cond s).bus = s.bus ∧
    (detect id cond s).sl = s.sl ∧ (detect id cond s).nv = s.nv ∧ (detect id cond s).imp = s.imp ∧
    (detect id cond s).sh = s.sh ∧ (detect id cond s).bkp = s.bkp ∧ (detect id cond s).key = s.key ∧
    (detect id cond s).fk = s.fk ∧ (detect id cond s).port = s.port ∧ (detect id cond s).fe = s.fe ∧
    (detect id cond s).fm = s.fm ∧ (detect id cond s).cs = s.cs ∧ (detect id cond s).tone = s.tone ∧
    (detect id cond s).cal = s.cal ∧ (detect id cond s).kern = s.kern ∧ (detect id cond s).gl = s.gl ∧
    (detect id cond s).draws = s.draws ∧ (detect id cond s).mark = s.mark ∧
    (detect id cond s).pending = s.pending := by
  unfold detect; dsimp only; split <;> simp

@[simp] theorem markLegal_frame (id : Nat) (s : State) :
    (markLegal id s).pwr = s.pwr ∧ (markLegal id s).sys = s.sys ∧ (markLegal id s).bus = s.bus ∧
    (markLegal id s).sl = s.sl ∧ (markLegal id s).nv = s.nv ∧ (markLegal id s).imp = s.imp ∧
    (markLegal id s).sh = s.sh ∧ (markLegal id s).bkp = s.bkp ∧ (markLegal id s).key = s.key ∧
    (markLegal id s).fk = s.fk ∧ (markLegal id s).port = s.port ∧ (markLegal id s).fe = s.fe ∧
    (markLegal id s).fm = s.fm ∧ (markLegal id s).cs = s.cs ∧ (markLegal id s).tone = s.tone ∧
    (markLegal id s).cal = s.cal ∧ (markLegal id s).kern = s.kern ∧ (markLegal id s).gl = s.gl ∧
    (markLegal id s).draws = s.draws ∧ (markLegal id s).mark = s.mark ∧
    (markLegal id s).pending = s.pending := by
  simp [markLegal]

@[simp] theorem detectFault_frame (k : Chan) (id : Nat) (cond : Bool) (s : State) :
    (detectFault k id cond s).pwr = s.pwr ∧ (detectFault k id cond s).sys = s.sys ∧
    (detectFault k id cond s).bus = s.bus ∧ (detectFault k id cond s).sl = s.sl ∧
    (detectFault k id cond s).nv = s.nv ∧ (detectFault k id cond s).imp = s.imp ∧
    (detectFault k id cond s).sh = s.sh ∧ (detectFault k id cond s).bkp = s.bkp ∧
    (detectFault k id cond s).key = s.key ∧ (detectFault k id cond s).fk = s.fk ∧
    (detectFault k id cond s).port = s.port ∧ (detectFault k id cond s).fe = s.fe ∧
    (detectFault k id cond s).fm = s.fm ∧ (detectFault k id cond s).cs = s.cs ∧
    (detectFault k id cond s).tone = s.tone ∧ (detectFault k id cond s).cal = s.cal ∧
    (detectFault k id cond s).kern = s.kern ∧ (detectFault k id cond s).gl = s.gl ∧
    (detectFault k id cond s).draws = s.draws ∧ (detectFault k id cond s).mark = s.mark ∧
    (detectFault k id cond s).pending = s.pending := by
  unfold detectFault; dsimp only; split <;> simp

@[simp] theorem edge_frame (id : Nat) (fires : Bool) (s : State) :
    (edge id fires s).pwr = s.pwr ∧ (edge id fires s).sys = s.sys ∧ (edge id fires s).bus = s.bus ∧
    (edge id fires s).sl = s.sl ∧ (edge id fires s).nv = s.nv ∧ (edge id fires s).imp = s.imp ∧
    (edge id fires s).sh = s.sh ∧ (edge id fires s).bkp = s.bkp ∧ (edge id fires s).key = s.key ∧
    (edge id fires s).fk = s.fk ∧ (edge id fires s).port = s.port ∧ (edge id fires s).fe = s.fe ∧
    (edge id fires s).fm = s.fm ∧ (edge id fires s).cs = s.cs ∧ (edge id fires s).tone = s.tone ∧
    (edge id fires s).cal = s.cal ∧ (edge id fires s).kern = s.kern ∧ (edge id fires s).gl = s.gl ∧
    (edge id fires s).draws = s.draws ∧ (edge id fires s).mark = s.mark ∧
    (edge id fires s).pending = s.pending := by
  unfold edge; dsimp only; (repeat' split) <;> simp

@[simp] theorem post_frame (id : Nat) (s : State) :
    (post id s).pwr = s.pwr ∧ (post id s).sys = s.sys ∧ (post id s).bus = s.bus ∧ (post id s).ev = s.ev ∧
    (post id s).sl = s.sl ∧ (post id s).nv = s.nv ∧ (post id s).imp = s.imp ∧ (post id s).sh = s.sh ∧
    (post id s).key = s.key ∧ (post id s).fk = s.fk ∧ (post id s).port = s.port ∧ (post id s).fe = s.fe ∧
    (post id s).fm = s.fm ∧ (post id s).cs = s.cs ∧ (post id s).tone = s.tone ∧ (post id s).cal = s.cal ∧
    (post id s).kern = s.kern ∧ (post id s).gl = s.gl ∧ (post id s).draws = s.draws ∧
    (post id s).mark = s.mark ∧ (post id s).pending = s.pending := by
  unfold post; (repeat' split) <;> simp

/-- R385: what finding a place of the queue changes: the queue, the steps held, the event unit. -/
@[simp] theorem enterQueue_frame (e : Entry) (s : State) :
    (enterQueue e s).pwr = s.pwr ∧ (enterQueue e s).sys = s.sys ∧ (enterQueue e s).bus = s.bus ∧
    (enterQueue e s).sl = s.sl ∧ (enterQueue e s).nv = s.nv ∧ (enterQueue e s).sh = s.sh ∧
    (enterQueue e s).bkp = s.bkp ∧ (enterQueue e s).key = s.key ∧ (enterQueue e s).fk = s.fk ∧
    (enterQueue e s).port = s.port ∧ (enterQueue e s).fe = s.fe ∧ (enterQueue e s).fm = s.fm ∧
    (enterQueue e s).cs = s.cs ∧ (enterQueue e s).tone = s.tone ∧ (enterQueue e s).cal = s.cal ∧
    (enterQueue e s).kern = s.kern ∧ (enterQueue e s).gl = s.gl ∧ (enterQueue e s).draws = s.draws ∧
    (enterQueue e s).mark = s.mark ∧ (enterQueue e s).pending = s.pending := by
  unfold enterQueue; (repeat' split) <;> simp

/-- R385: an entry that joins the queue, or is not stored, changes the queue and the event unit only. -/
@[simp] theorem queueEntry_frame (e : Entry) (s : State) :
    (queueEntry e s).pwr = s.pwr ∧ (queueEntry e s).sys = s.sys ∧ (queueEntry e s).bus = s.bus ∧
    (queueEntry e s).sl = s.sl ∧ (queueEntry e s).nv = s.nv ∧ (queueEntry e s).sh = s.sh ∧
    (queueEntry e s).bkp = s.bkp ∧ (queueEntry e s).key = s.key ∧ (queueEntry e s).fk = s.fk ∧
    (queueEntry e s).port = s.port ∧ (queueEntry e s).fe = s.fe ∧ (queueEntry e s).fm = s.fm ∧
    (queueEntry e s).cs = s.cs ∧ (queueEntry e s).tone = s.tone ∧ (queueEntry e s).cal = s.cal ∧
    (queueEntry e s).kern = s.kern ∧ (queueEntry e s).gl = s.gl ∧ (queueEntry e s).draws = s.draws ∧
    (queueEntry e s).mark = s.mark ∧ (queueEntry e s).pending = s.pending := by
  unfold queueEntry; (repeat' split) <;> simp

@[simp] theorem bufferEntry_frame (e : Entry) (s : State) :
    (bufferEntry e s).pwr = s.pwr ∧ (bufferEntry e s).sys = s.sys ∧ (bufferEntry e s).bus = s.bus ∧
    (bufferEntry e s).ev = s.ev ∧ (bufferEntry e s).sl = s.sl ∧ (bufferEntry e s).nv = s.nv ∧
    (bufferEntry e s).imp = s.imp ∧ (bufferEntry e s).sh = s.sh ∧ (bufferEntry e s).key = s.key ∧
    (bufferEntry e s).fk = s.fk ∧ (bufferEntry e s).port = s.port ∧ (bufferEntry e s).fe = s.fe ∧
    (bufferEntry e s).fm = s.fm ∧ (bufferEntry e s).cs = s.cs ∧ (bufferEntry e s).tone = s.tone ∧
    (bufferEntry e s).cal = s.cal ∧ (bufferEntry e s).kern = s.kern ∧ (bufferEntry e s).gl = s.gl ∧
    (bufferEntry e s).draws = s.draws ∧ (bufferEntry e s).mark = s.mark ∧
    (bufferEntry e s).pending = s.pending := by
  unfold bufferEntry; (repeat' split) <;> simp

@[simp] theorem logEntry_frame (e : Entry) (s : State) :
    (logEntry e s).pwr = s.pwr ∧ (logEntry e s).sys = s.sys ∧ (logEntry e s).bus = s.bus ∧ (logEntry e s).sl = s.sl ∧
    (logEntry e s).nv = s.nv ∧ (logEntry e s).sh = s.sh ∧ (logEntry e s).key = s.key ∧ (logEntry e s).fk = s.fk ∧
    (logEntry e s).port = s.port ∧ (logEntry e s).fe = s.fe ∧ (logEntry e s).fm = s.fm ∧ (logEntry e s).cs = s.cs ∧
    (logEntry e s).tone = s.tone ∧ (logEntry e s).cal = s.cal ∧ (logEntry e s).kern = s.kern ∧
    (logEntry e s).gl = s.gl ∧ (logEntry e s).draws = s.draws ∧ (logEntry e s).mark = s.mark ∧
    (logEntry e s).pending = s.pending := by
  unfold logEntry; (repeat' split) <;> simp

@[simp] theorem logNow_frame (code : Byte) (data : W32) (s : State) :
    (logNow code data s).pwr = s.pwr ∧ (logNow code data s).sys = s.sys ∧ (logNow code data s).bus = s.bus ∧
    (logNow code data s).sl = s.sl ∧ (logNow code data s).nv = s.nv ∧ (logNow code data s).sh = s.sh ∧
    (logNow code data s).key = s.key ∧ (logNow code data s).fk = s.fk ∧ (logNow code data s).port = s.port ∧
    (logNow code data s).fe = s.fe ∧ (logNow code data s).fm = s.fm ∧ (logNow code data s).cs = s.cs ∧
    (logNow code data s).tone = s.tone ∧ (logNow code data s).cal = s.cal ∧ (logNow code data s).kern = s.kern ∧
    (logNow code data s).gl = s.gl ∧ (logNow code data s).draws = s.draws ∧
    (logNow code data s).mark = s.mark ∧ (logNow code data s).pending = s.pending := by
  simp [logNow]

@[simp] theorem beginChange_frame  (s : State) :
    (beginChange s).pwr = s.pwr ∧ (beginChange s).sys = s.sys ∧ (beginChange s).bus = s.bus ∧
    (beginChange s).nv = s.nv ∧ (beginChange s).sh = s.sh ∧ (beginChange s).bkp = s.bkp ∧
    (beginChange s).key = s.key ∧ (beginChange s).fk = s.fk ∧ (beginChange s).port = s.port ∧
    (beginChange s).fe = s.fe ∧ (beginChange s).fm = s.fm ∧ (beginChange s).cs = s.cs ∧
    (beginChange s).tone = s.tone ∧ (beginChange s).cal = s.cal ∧ (beginChange s).kern = s.kern ∧
    (beginChange s).gl = s.gl ∧ (beginChange s).draws = s.draws ∧ (beginChange s).mark = s.mark ∧
    (beginChange s).pending = s.pending := by
  unfold beginChange; (repeat' split) <;> simp

/-- R91: the check of LIVE changes LIVE and the event unit only. -/
@[simp] theorem liveCheck_frame  (s : State) :
    (liveCheck s).pwr = s.pwr ∧ (liveCheck s).bus = s.bus ∧ (liveCheck s).sl = s.sl ∧ (liveCheck s).nv = s.nv ∧
    (liveCheck s).imp = s.imp ∧ (liveCheck s).sh = s.sh ∧ (liveCheck s).bkp = s.bkp ∧ (liveCheck s).key = s.key ∧
    (liveCheck s).fk = s.fk ∧ (liveCheck s).port = s.port ∧ (liveCheck s).fe = s.fe ∧ (liveCheck s).fm = s.fm ∧
    (liveCheck s).cs = s.cs ∧ (liveCheck s).tone = s.tone ∧ (liveCheck s).cal = s.cal ∧ (liveCheck s).kern = s.kern ∧
    (liveCheck s).gl = s.gl ∧ (liveCheck s).draws = s.draws ∧ (liveCheck s).mark = s.mark ∧
    (liveCheck s).pending = s.pending := by
  unfold liveCheck; dsimp only; split <;> simp

/-- R385: steps that go on change the log queue only. -/
@[simp] theorem admitHeld_frame (s : State) :
    (admitHeld s).pwr = s.pwr ∧ (admitHeld s).sys = s.sys ∧ (admitHeld s).bus = s.bus ∧ (admitHeld s).ev = s.ev ∧
    (admitHeld s).sl = s.sl ∧ (admitHeld s).nv = s.nv ∧ (admitHeld s).sh = s.sh ∧ (admitHeld s).bkp = s.bkp ∧
    (admitHeld s).key = s.key ∧ (admitHeld s).fk = s.fk ∧ (admitHeld s).port = s.port ∧ (admitHeld s).fe = s.fe ∧
    (admitHeld s).fm = s.fm ∧ (admitHeld s).cs = s.cs ∧ (admitHeld s).tone = s.tone ∧ (admitHeld s).cal = s.cal ∧
    (admitHeld s).kern = s.kern ∧ (admitHeld s).gl = s.gl ∧ (admitHeld s).draws = s.draws ∧
    (admitHeld s).mark = s.mark ∧ (admitHeld s).pending = s.pending := by
  simp [admitHeld]

/-- R475: what an injection that ends without an evaluation changes. -/
@[simp] theorem injectionAborts_frame (s : State) :
    (injectionAborts s).pwr = s.pwr ∧ (injectionAborts s).sys = s.sys ∧ (injectionAborts s).bus = s.bus ∧
    (injectionAborts s).sl = s.sl ∧ (injectionAborts s).nv = s.nv ∧ (injectionAborts s).sh = s.sh ∧
    (injectionAborts s).key = s.key ∧ (injectionAborts s).fk = s.fk ∧ (injectionAborts s).port = s.port ∧
    (injectionAborts s).fe = s.fe ∧ (injectionAborts s).fm = s.fm ∧ (injectionAborts s).cs = s.cs ∧
    (injectionAborts s).tone = s.tone ∧ (injectionAborts s).cal = s.cal ∧ (injectionAborts s).kern = s.kern ∧
    (injectionAborts s).gl = s.gl ∧ (injectionAborts s).draws = s.draws ∧ (injectionAborts s).mark = s.mark ∧
    (injectionAborts s).pending = s.pending := by
  simp only [injectionAborts, when]; split <;> simp

@[simp] theorem injectionCheck_frame  (s : State) :
    (injectionCheck s).pwr = s.pwr ∧ (injectionCheck s).sys = s.sys ∧ (injectionCheck s).bus = s.bus ∧
    (injectionCheck s).sl = s.sl ∧ (injectionCheck s).nv = s.nv ∧ (injectionCheck s).sh = s.sh ∧
    (injectionCheck s).key = s.key ∧ (injectionCheck s).fk = s.fk ∧ (injectionCheck s).port = s.port ∧
    (injectionCheck s).fe = s.fe ∧ (injectionCheck s).fm = s.fm ∧ (injectionCheck s).cs = s.cs ∧
    (injectionCheck s).tone = s.tone ∧ (injectionCheck s).cal = s.cal ∧ (injectionCheck s).kern = s.kern ∧
    (injectionCheck s).gl = s.gl ∧ (injectionCheck s).draws = s.draws ∧ (injectionCheck s).mark = s.mark ∧
    (injectionCheck s).pending = s.pending := by
  unfold injectionCheck; split <;> simp

@[simp] theorem startOp_frame (op : ArrayOp) (s : State) :
    (startOp op s).pwr = s.pwr ∧ (startOp op s).sys = s.sys ∧ (startOp op s).bus = s.bus ∧ (startOp op s).ev = s.ev ∧
    (startOp op s).sl = s.sl ∧ (startOp op s).imp = s.imp ∧ (startOp op s).sh = s.sh ∧ (startOp op s).bkp = s.bkp ∧
    (startOp op s).key = s.key ∧ (startOp op s).fk = s.fk ∧ (startOp op s).port = s.port ∧ (startOp op s).fe = s.fe ∧
    (startOp op s).fm = s.fm ∧ (startOp op s).cs = s.cs ∧ (startOp op s).tone = s.tone ∧ (startOp op s).cal = s.cal ∧
    (startOp op s).kern = s.kern ∧ (startOp op s).gl = s.gl ∧ (startOp op s).draws = s.draws ∧
    (startOp op s).mark = s.mark ∧ (startOp op s).pending = s.pending := by
  simp [startOp]

@[simp] theorem startHost_frame  (s : State) :
    (startHost s).pwr = s.pwr ∧ (startHost s).sys = s.sys ∧ (startHost s).bus = s.bus ∧ (startHost s).sl = s.sl ∧
    (startHost s).imp = s.imp ∧ (startHost s).sh = s.sh ∧ (startHost s).bkp = s.bkp ∧ (startHost s).key = s.key ∧
    (startHost s).fk = s.fk ∧ (startHost s).port = s.port ∧ (startHost s).fe = s.fe ∧ (startHost s).fm = s.fm ∧
    (startHost s).cs = s.cs ∧ (startHost s).tone = s.tone ∧ (startHost s).cal = s.cal ∧ (startHost s).kern = s.kern ∧
    (startHost s).gl = s.gl ∧ (startHost s).draws = s.draws ∧ (startHost s).mark = s.mark ∧
    (startHost s).pending = s.pending := by
  unfold startHost; (repeat' split) <;> simp

end Sys2Proof.Machine
end

