-- ==== Sys2Proof/WellFormed.lean ====
section
/-! DEFINITION. WellFormed.lean: the operands that a command can carry on this hardware. -/

namespace Sys2Proof

/-- R289, R290: a frame's body has at most 31 words. -/
def Frame.wf (f : Frame) : Bool := decide (f.body.length ≤ 31)

/-- R172: a reading of the temperature converter, in 0.01 °C, spans −60 °C to 150 °C. -/
def temperatureWf (v : Word) : Bool := decide (-6000 ≤ v.toInt ∧ v.toInt ≤ 15000)

/-- The operands lie in the ranges that the manual gives them: a station that answers is a NODE (R284), a migration has
at most the 16 entries of the backup buffer (R389), an RST# pulse has a width (R71). -/
def Instr.wf : Instr → Bool
  | .rstPinReset ns => decide (1 ≤ ns)
  | .backupMigration n => decide (n ≤ 16)
  | .tempConversionDone c => !c.done || temperatureWf c.value
  | .beaconReceived f _ => f.wf
  | .uplinkReceived a f _ => decide (a ≠ 0) && f.wf
  | .joinReceived a f _ => decide (a ≠ 0) && f.wf
  | .nodeSlotEnd a => decide (a ≠ 0)
  | .downlinkReceived f => f.wf
  | .broadcastReceived f => f.wf
  | _ => true

end Sys2Proof
end

