-- ==== Sys2Proof/Tests/Slice0.lean ====
section
/-! SUPPORT. Tests/Slice0.lean: small tests of the model, and a witness for the hypotheses of each statement. The expected
value of a test stands in the spec, at the place that its comment names. -/

open Sys2Proof Sys2Proof.Machine

namespace Sys2Proof.Tests

set_option Elab.async false

/-! ## WellFormed refuses -/

/-- A frame whose body is too long for the LEN field (Table 10-1). -/
def longFrame : Frame := { header := 0, body := List.replicate 32 0, mac := 0, crc := 0 }
/-- A frame without a body. -/
def shortFrame : Frame := { header := 0, body := [], mac := 0, crc := 0 }

theorem test_wf_rst : Instr.wf (.rstPinReset 0) = false := by decide
theorem test_wf_migration : Instr.wf (.backupMigration 17) = false := by decide
theorem test_wf_temperature :
    Instr.wf (.tempConversionDone { done := true, isOpen := false, isShort := false, value := 15001 }) = false := by
  decide
theorem test_wf_beacon : Instr.wf (.beaconReceived longFrame 0) = false := by decide
theorem test_wf_uplink : Instr.wf (.uplinkReceived 0 shortFrame 0) = false := by decide
theorem test_wf_uplink_frame : Instr.wf (.uplinkReceived 1 longFrame 0) = false := by decide
theorem test_wf_join : Instr.wf (.joinReceived 0 shortFrame 0) = false := by decide
theorem test_wf_join_frame : Instr.wf (.joinReceived 1 longFrame 0) = false := by decide
theorem test_wf_slot : Instr.wf (.nodeSlotEnd 0) = false := by decide
theorem test_wf_downlink : Instr.wf (.downlinkReceived longFrame) = false := by decide
theorem test_wf_broadcast : Instr.wf (.broadcastReceived longFrame) = false := by decide
theorem test_wf_good : Instr.wf (.uplinkReceived 1 shortFrame 5) = true := by decide

/-! ## Small states -/

/-- The device in a phase, with nothing else changed since reset. -/
def inPhase (p : Phase) : State := { State.reset with pwr := { Power.reset with phase := p } }

/-- RUN, MAKEREADY with the increment of the session committed, and start-up. -/
def runState : State := inPhase .run
def mrState : State := { inPhase .makeready with sl := { Seal.reset with incr := .done } }
def bootState : State := inPhase .startup

/-- A NODE in RUN, in a state of its link. -/
def nodeState (l : LinkState) : State :=
  { runState with pwr := { runState.pwr with role := true }, gl := { Galley.reset with state := l, en := true } }

/-- The window at a word of an array. -/
def atWindow (array : BitVec 4) (a : BitVec 24) (s : State) : State :=
  { s with bus := { s.bus with array := array, addr := a } }

/-- The state after a command. -/
def after (c : Instr) (s : State) : State :=
  match exec c s with
  | .next t => t
  | _ => s

/-! ## Single commands -/

/-- Tables 04-7 and 04-8: CHIPID and REV. -/
theorem test_chipid : (busRead 0x00 runState).1 = 0x4816 ∧ (busRead 0x01 runState).1 = 0x0043 := by decide
/-- Worked example 04-1, accesses 6 and 8: the write goes to SHADOW word 0041h, and the address advances. -/
theorem test_shadow_write :
    shadowWord (after (.shadowWrite 0x1234) (atWindow 11 0x41 runState)) 0x41 = 0x1234 ∧
    (after (.shadowWrite 0x1234) (atWindow 11 0x41 runState)).bus.addr = 0x42 := by decide
/-- 04, Tests, 11: WINADH = 01h and a read of WINDAT in a short array. -/
theorem test_window_range : (after .windatRead (atWindow 0 0x10000 runState)).bus.range = true := by decide
/-- 05, Tests, 7: INJ without arming sets REF. -/
theorem test_inject_unarmed : (after (.injectStart 0x2E0) runState).ev.ref = true := by decide
/-- Worked example 05-1: EVSUM_1 reads 0800h for the overflow of group 1Bh with SUMSEL = 1. -/
theorem test_evsum : summary 1 { Events.reset with sumsel := true, ovf := setBit 0 0x1B true } = 0x0800 := by decide
/-- Worked example 06-2: at 1 kHz with B = 32 mt the first sample comes 3,104 mt after E. -/
theorem test_settle : settleMt { runState with fe := { Front.reset with fdiv := 2, blank := 2 } } = 3104 := by decide
/-- Worked example 07-1: the words of preset D24K. -/
theorem test_preset : (presetWords 7).take 4 = [0x4B010600, 0x1801E000, 0x20000000, 0x311B8000] := by decide
/-- R211: the third position of SMPDAT is the tag. -/
theorem test_smpdat :
    (after .smpdatRead { runState with fm := { Forme.reset with pos := 2, snap := some { value := 5, tag := 0x0107 } } }).bus.data
      = 0x0107 := by decide
/-- R240: a pointer write opens the data phase of its parameter. -/
theorem test_tone_pointer : (after (.tonePointerWrite 0x8004) runState).tone.pidx = 4 := by decide
/-- Worked example 10-2: GLRA reads 0242h, and RASTAT is 8234h. -/
theorem test_glra : glraWord { runState with gl := { Galley.reset with res := 1, tgt := 2, nacc := 2 } } = 0x0242 := by decide
/-- R390: the seconds count wraps from FFFF_FFFFh to 0. -/
theorem test_rtc_wraps :
    (after .rtcSecond { runState with bkp := { Bkp.reset with sec := 0xFFFFFFFF } }).bkp.sec = 0 := by decide
/-- R338, Practice: LOAD of slot 2 (1962h) opens its data phase. -/
theorem test_key_load : (after (.keyLoad 0x1962) mrState).key.dph = true ∧ (after (.keyLoad 0x1962) mrState).key.slot = 2 := by
  decide
/-- R338: a wrong KEY raises event 353h. -/
theorem test_key_wrong : isSticky 0x353 (after (.keyLoad 0x1942) mrState) = true := by decide +kernel
/-- Worked example 12-3: IMPST at NEXT = 3,969 and at 4,032. -/
theorem test_impst : impstWord { runState with imp := { Imprint.reset with next := 3969 } } = 0x8F81 ∧
    impstWord { runState with imp := { Imprint.reset with next := 4032 } } = 0xCFC0 := by decide
/-- Worked example 12-1: OPEN with base 3. -/
theorem test_txn_open : (after (.txnOpen 0x8003) runState).sh.base = 3 ∧
    (after (.txnOpen 0x8003) runState).sh.staging.isSome = true := by decide
/-- R105: overlapping strobes in the strobe-pair style raise event 022h. -/
theorem test_strobes : isSticky 0x22 (after .strobeConflict runState) = true := by decide +kernel
/-- R12: an RWM register in RUN keeps its value, with event 024h. -/
theorem test_excctl_run : (after (.excctlWrite 0x4000) runState).fe.mode = 0 ∧
    isSticky 0x24 (after (.excctlWrite 0x4000) runState) = true := by decide +kernel
/-- R343: EXTEST (00h) from RUN clears the key store and sets PEND. -/
theorem test_port : (after (.composingPortRequest 0) runState).port.pend = true := by decide +kernel


/-! ## Witnesses: the whole block

Each theorem meets the hypotheses of the statement it is named after, clause by clause. -/

/-- RUN with one counter at its last value, and an event injected. -/
def wrapState : State := { runState with ev := { Events.reset with count := Events.reset.count.set 5 (BitVec.allOnes 48) } }


theorem witness_EndOfCommand : RingsUsable runState := by unfold RingsUsable; decide +kernel
theorem witness_EventOccurs : sysLive State.reset = false ∧ sysLive runState = true ∧
    runState.ev.count.get 63 ≠ BitVec.allOnes 48 ∧ wrapState.ev.count.get 5 = BitVec.allOnes 48 ∧
    alreadyInjected 0x50 runState = false ∧
    alreadyInjected 0x50 { runState with mark := .injected, ev := { Events.reset with evid := 0x50 } } = true := by
  decide +kernel

/-- MemoryGood of a state whose arrays list nothing and in which no shadow store runs. -/
theorem good_of_empty (s : State) (h1 : s.nv.mem = []) (h2 : s.sh.sram = []) (h3 : s.sh.bankA.image = [])
    (h4 : s.sh.bankB.image = []) (h5 : storeImage s.nv.running = none) : MemoryGood s := by
  refine ⟨by rw [h1]; rfl, by rw [h2]; rfl, by rw [h3]; rfl, by rw [h4]; rfl, fun i h => ?_⟩
  rw [h5] at h; exact absurd h (by simp)

theorem runState_good : MemoryGood runState := good_of_empty _ rfl rfl rfl rfl rfl
theorem witness_StepKeepsMemoryGood :
    MemoryGood runState ∧ ∃ t, step { runState with pending := [.shadowWrite 1] } = .next t := ⟨runState_good, _, rfl⟩
theorem witness_ImprintBitsNeverReturn : ∃ s t, MemoryGood s ∧ step s = .next t :=
  ⟨_, _, runState_good, rfl⟩

/-- The last step of a granted opening is due. -/
def openedState : State := { runState with sl := { Seal.reset with opening := .opened false } }
theorem witness_MakereadyOnlyByOpening : (after .makereadyEntry openedState).pwr.phase = .makeready ∧
    openedState.pwr.phase ≠ .makeready := by decide +kernel

/-- RUN with CH_0 running as a legal-class channel, its output in order, a fresh heartbeat and LIVE on. -/
def liveState : State :=
  modFm 0 (fun c => { c with haveOut := true })
    (modFe 0 (fun c => { c with cls := true, state := .running })
      { runState with
        sys := { Sys.reset with hbFresh := true, liveOn := true }, key := { Keys.reset with void := false } })
theorem witness_LiveOnlyWhileConditionsHold : (after .rtcSecond liveState).sys.liveOn = true := by decide +kernel
/-- The st of PFAIL. -/
def failing : State := { inPhase .powerFail with mark := .pfail }
theorem witness_CommandsIgnoredWhileHeld : isAccess (.shadowWrite 0) = true ∧ busLive State.reset = false ∧
    State.reset.mark ≠ .pfail ∧ isSysCommand .beaconMissed = true ∧ sysLive State.reset = false ∧
    busLive failing = false ∧ failing.mark = .pfail := by decide +kernel

/-! ## Witnesses: power, reset and start-up -/

theorem witness_RegistersAfterReset : ∃ s u, AfterReset s u := by
  refine ⟨State.reset, State.reset, rfl, rfl, rfl, rfl, rfl, ?_, rfl, rfl, rfl, rfl, rfl, rfl, rfl, rfl, rfl, rfl, rfl, rfl, rfl, rfl,
    rfl, rfl, rfl, rfl, rfl, rfl, rfl, rfl, rfl, rfl, rfl, rfl⟩
  simp [State.reset, Events.reset]
theorem witness_PowerUpHoldsReset : (inPhase .unpowered).pwr.phase = .unpowered ∧ (inPhase .lockup).pwr.phase = .lockup ∧
    (inPhase .lockup).pwr.vdd = true := by decide

/-- RUN with an operation of the controller in progress, and with a host page pending. -/
def busyState : State := { runState with nv := { Nv.reset with running := some (.hostPage 0 []) } }
theorem witness_ResetTakesEffectOrWaits :
    asksReset (.rstPinReset 1000) runState = some 3 ∧ asksReset (.softReset 0xC300) runState = some 4 ∧
    asksReset .watchdogReset { runState with sys := { Sys.reset with wdrst := true } } = some 5 ∧
    resetWaits runState = false ∧ resetWaits busyState = true ∧ sysLive runState = true ∧ busLive runState = true ∧
    fieldOf (0xC200 : Word) 8 8 ≠ 0xC3 := by decide +kernel
/-- A keyed soft reset waits behind a host page, and behind the write of slot 2. -/
def waitingReset : State := { busyState with pwr := { busyState.pwr with heldReset := some 4, srst := true } }
def waitingKey : State :=
  { mrState with
    pwr := { mrState.pwr with heldReset := some 4 }, key := { Keys.reset with op := some (2, none) } }
theorem witness_ResetTakesEffectOrWaits_end : sysLive waitingReset = true ∧
    waitingReset.nv.running = some (.hostPage 0 []) ∧ storeRuns waitingReset = false ∧
    waitingReset.pwr.heldReset = some 4 ∧ waitingReset.key.op = none ∧ sysLive waitingKey = true ∧
    waitingKey.key.op = some (2, none) ∧ changeFree waitingKey = true ∧ waitingKey.nv.running = none := by decide +kernel
theorem witness_StartupSequence : State.reset.pwr.phase = .reset ∧ bootState.pwr.phase = .startup ∧
    bootState.pwr.migrated = false ∧ bootState.nv.running = none ∧ bootState.bkp.buffer = [] ∧ bootState.bkp.migDone = 0 ∧
    bootState.bkp.lost = 0 ∧ bootState.bkp.migLost = 0 ∧ bootState.sys.patchLog = none ∧ bootState.imp.next < 3968 ∧
    (∀ i < 16, nvByte bootState (0x10000 + 16 * bootState.imp.next + i) = 0xFF) := by decide +kernel

/-- Start-up with the migration done, and with the digest done too. -/
def migratedState : State := { bootState with pwr := { bootState.pwr with migrated := true } }
def digestedState : State := { migratedState with pwr := { migratedState.pwr with digested := true } }
theorem witness_StartupSequence_end : digestedState.pwr.phase = .startup ∧ digestedState.pwr.migrated = true ∧
    digestedState.pwr.digested = true := by decide

/-- Start-up with one entry in the backup buffer; in an interrupted session at position 4,030. -/
def buffered (c : Byte) (s : State) : State :=
  { s with bkp := { s.bkp with buffer := [{ code := c, time := 5, frac := 6, data := 7 }] } }
def openRing : Vector (Option RingSlot) 64 := Nv.reset.ring.set 1 (some { slot := 0, seq := 1, value := 0x10000 })
def cutSession (next : Nat) : State :=
  { bootState with nv := { Nv.reset with ring := openRing }, imp := { Imprint.reset with next := next } }
theorem witness_StartupSequence_buffer :
    (buffered 0x33 bootState).bkp.buffer = [{ code := 0x33, time := 5, frac := 6, data := 7 }] ∧
    (buffered 0x33 bootState).imp.next < 3966 ∧
    (∀ i < 48, nvByte (buffered 0x33 bootState) (0x10000 + 16 * (buffered 0x33 bootState).imp.next + i) = 0xFF) ∧
    (buffered 0x33 { bootState with imp := { Imprint.reset with next := 3958 } }).imp.next + 1 < 3960 ∧
    sessionOpen (buffered 0x33 (cutSession 4030)) = true ∧ (buffered 0x33 (cutSession 4030)).imp.next = 4030 ∧
    isTrip 0x38 = true ∧ isTrip 0x02 = false := by decide +kernel
theorem witness_StartupSequence_good : MemoryGood bootState ∧ MemoryGood (buffered 0x33 (cutSession 4030)) :=
  ⟨good_of_empty _ rfl rfl rfl rfl rfl, good_of_empty _ rfl rfl rfl rfl rfl⟩

/-- The state in reset with bytes of the array written. -/
def written (ws : List (Nat × List Byte)) : State :=
  { State.reset with nv := { Nv.reset with mem := ws.foldl (fun m x => cellWrites 0xFF m x.1 x.2) [] } }
/-- The configuration words of page 512. -/
def configured (ws : List Word) : State := written [(0x8000, (ws.map fun w => leBytes 2 w.toNat).flatten)]
def goodConfig : State := configured [0x2200, 0x2C00, 0x0400, 0x2000, 0x2000, 0xF83F, 0x0800, 0xE005, 0x8003]
theorem witness_RestoresAtRelease : State.reset.pwr.phase = .reset ∧ configWord 0 goodConfig = some 0x2200 ∧
    excctlBad 0x2200 = false ∧ configWord 0 (configured [0xC000]) = some 0xC000 ∧ excctlBad 0xC000 = true ∧
    configWord 0 State.reset = none ∧ configWord 2 goodConfig = some 0x2C00 ∧ configWord 4 goodConfig = some 0x0400 ∧
    configWord 8 goodConfig = some 0x2000 ∧ configWord 8 State.reset = none ∧ configWord 10 goodConfig = some 0xF83F ∧
    configWord 12 goodConfig = some 0x0800 ∧ configWord 14 goodConfig = some 0xE005 ∧ fieldOf (0xE005 : Word) 0 4 ≠ 0 ∧
    configWord 14 State.reset = none ∧ configWord 16 goodConfig = some 0x8003 ∧ configWord 16 State.reset = none := by
  decide +kernel
/-- What the bytes read that have been written. -/
theorem read_written (a b n : Nat) (bs : List Byte) (h1 : a ≤ b) (h2 : b + n ≤ a + bs.length) :
    nvReadBytes (written [(a, bs)]) b n = (bs.drop (b - a)).take n := by
  unfold nvReadBytes
  apply List.ext_getElem
  · simp; omega
  · intro i h3 h4
    simp only [List.length_map, List.length_range] at h3
    simp only [List.getElem_map, List.getElem_range]
    rw [nvReadByte_clean _ _ rfl]
    have e := cellRead_cellWrites (0xFF : Byte) bs [] a (b + i) rfl
    have e1 : nvByte (written [(a, bs)]) (b + i) = cellRead 0xFF (cellWrites 0xFF [] a bs) (b + i) := rfl
    rw [e1, e, if_pos (by omega)]
    have h5 : b + i - a < bs.length := by omega
    simp [List.getD_eq_getElem?_getD, h5, show b - a + i = b + i - a by omega]

/-- What the bytes below them read. -/
theorem read_blank (a b n : Nat) (bs : List Byte) (h : b + n ≤ a) :
    nvReadBytes (written [(a, bs)]) b n = List.replicate n 0xFF := by
  unfold nvReadBytes
  apply List.ext_getElem
  · simp
  · intro i h3 h4
    simp only [List.length_map, List.length_range] at h3
    simp only [List.getElem_map, List.getElem_range, List.getElem_replicate]
    rw [nvReadByte_clean _ _ rfl]
    have e := cellRead_cellWrites (0xFF : Byte) bs [] a (b + i) rfl
    have e1 : nvByte (written [(a, bs)]) (b + i) = cellRead 0xFF (cellWrites 0xFF [] a bs) (b + i) := rfl
    rw [e1, e, if_neg (by omega)]; rfl

theorem crc_bytes (w : Word) : BitVec.ofNat 16 (ofLe (leBytes 2 w.toNat)) = w := by
  apply BitVec.eq_of_toNat_eq
  have := w.isLt
  simp [leBytes, ofLe]; omega


theorem storedSlot_written (a n : Nat) (body : List Byte) (h : body.length = n + 4) :
    storedSlot a n (written [(a, body ++ leBytes 2 (crc16 body).toNat)]) = some (ofLe (body.drop n), body.take n) := by
  have e1 : nvReadBytes (written [(a, body ++ leBytes 2 (crc16 body).toNat)]) a (n + 4) = body := by
    rw [read_written a a _ _ (by omega) (by simp [leBytes, h]), Nat.sub_self, List.drop_zero, ← h, List.take_left]
  have e2 : nvReadBytes (written [(a, body ++ leBytes 2 (crc16 body).toNat)]) (a + n + 4) 2 =
      leBytes 2 (crc16 body).toNat := by
    rw [read_written a _ _ _ (by omega) (by simp [leBytes, h]; omega), show a + n + 4 - a = body.length by omega,
      List.drop_left, List.take_of_length_le (by simp [leBytes])]
  simp [storedSlot, e1, e2, crc_bytes]

theorem storedSlot_blank (a b n : Nat) (bs : List Byte) (h : b + n + 6 ≤ a)
    (hc : crc16 (List.replicate (n + 4) 0xFF) ≠ 0xFFFF) : storedSlot b n (written [(a, bs)]) = none := by
  rw [storedSlot, read_blank a b _ bs (by omega), read_blank a _ _ bs (by omega)]
  simp only [ite_eq_right_iff, reduceCtorEq, imp_false]
  exact hc

theorem crc_blank : crc16 (List.replicate 260 0xFF) = 0x581C ∧ crc16 (List.replicate 136 0xFF) = 0xD0BC := by
  have e (n : Nat) (c : Word) : (List.replicate (52 + n) (0xFF : Byte)).foldl crc16Byte c =
      (List.replicate n (0xFF : Byte)).foldl crc16Byte ((List.replicate 52 (0xFF : Byte)).foldl crc16Byte c) := by
    rw [← List.replicate_append_replicate, List.foldl_append]
  constructor
  · rw [crc16, show 260 = 52 + (52 + (52 + (52 + 52))) from rfl, e, e, e, e,
      show (List.replicate 52 (0xFF : Byte)).foldl crc16Byte 0xFFFF = 0xC3D1 by decide +kernel,
      show (List.replicate 52 (0xFF : Byte)).foldl crc16Byte 0xC3D1 = 0x0C22 by decide +kernel,
      show (List.replicate 52 (0xFF : Byte)).foldl crc16Byte 0x0C22 = 0x1598 by decide +kernel,
      show (List.replicate 52 (0xFF : Byte)).foldl crc16Byte 0x1598 = 0xFE1C by decide +kernel]
    decide +kernel
  · rw [crc16, show 136 = 52 + (52 + 32) from rfl, e, e,
      show (List.replicate 52 (0xFF : Byte)).foldl crc16Byte 0xFFFF = 0xC3D1 by decide +kernel,
      show (List.replicate 52 (0xFF : Byte)).foldl crc16Byte 0xC3D1 = 0x0C22 by decide +kernel]
    decide +kernel

/-- CH_3 has the preset 0 stored in slot 1, GEN 7. -/
def storedBody : List Byte := formeBytes (presetImage 0) ++ leBytes 4 7
def storedImage : State := written [(64 * formePage 3 1, storedBody ++ leBytes 2 (crc16 storedBody).toNat)]
theorem witness_RestoresAtRelease_forme : storedForme 3 storedImage = some (1, 7, formeBytes (presetImage 0)) ∧
    loaderCheck true (imageOf (w32sOfBytes (formeBytes (presetImage 0)))) = none ∧ storedForme 0 storedImage = none := by
  have h : storedBody.length = 256 + 4 := by decide +kernel
  have h1 : storedSlot (64 * formePage 3 1) 256 storedImage = some (7, formeBytes (presetImage 0)) := by
    rw [storedImage, storedSlot_written _ 256 _ h]; decide +kernel
  have h0 (k : Chan) (slot : Nat) (hk : 64 * formePage k slot + 262 ≤ 64 * formePage 3 1) :
      storedSlot (64 * formePage k slot) 256 storedImage = none :=
    storedSlot_blank _ _ _ _ hk (by rw [crc_blank.1]; decide)
  refine ⟨?_, by decide +kernel, ?_⟩
  · rw [storedForme, h1, h0 3 0 (by decide)]; rfl
  · rw [storedForme, h0 0 0 (by decide), h0 0 1 (by decide)]; rfl

/-- CH_3 has the identity set stored in slot 1, GEN 9. -/
def calBody : List Byte := bytesOfW32s identitySet.toList ++ leBytes 4 9
def calImage : State := written [(64 * calPage 3 1, calBody ++ leBytes 2 (crc16 calBody).toNat)]
theorem witness_RestoresAtRelease_cal : storedCal 3 calImage = some (1, 9, bytesOfW32s identitySet.toList) ∧
    vecOf 33 0 (w32sOfBytes (bytesOfW32s identitySet.toList)) = identitySet ∧ calCountBad identitySet = false ∧
    calTempsBad identitySet = false ∧ calFormBad identitySet = false ∧ storedCal 0 calImage = none := by
  have h : calBody.length = 132 + 4 := by decide +kernel
  have h1 : storedSlot (64 * calPage 3 1) 132 calImage = some (9, bytesOfW32s identitySet.toList) := by
    rw [calImage, storedSlot_written _ 132 _ h]; decide +kernel
  have h0 (k : Chan) (slot : Nat) (hk : 64 * calPage k slot + 138 ≤ 64 * calPage 3 1) :
      storedSlot (64 * calPage k slot) 132 calImage = none :=
    storedSlot_blank _ _ _ _ hk (by rw [crc_blank.2]; decide)
  refine ⟨?_, by decide +kernel, by decide +kernel, by decide +kernel, by decide +kernel, ?_⟩
  · rw [storedCal, h1, h0 3 0 (by decide)]; rfl
  · rw [storedCal, h0 0 0 (by decide), h0 0 1 (by decide)]; rfl

/-- Pool slot 4 holds a blank image, whose CRC is `c`, and its trailer gives it to CH_3, complete or not. -/
def trailerBody (mark : Byte) (c : Word) : List Byte :=
  leBytes 4 3 ++ [3, 1, mark, mark] ++ leBytes 2 c.toNat ++ [0, 0]
def pooled (mark : Byte) (c : Word) : State :=
  written [(64 * (poolPage 4 + 32), trailerBody mark c ++ leBytes 2 (crc16 (trailerBody mark c)).toNat)]
theorem trailerOf_pooled (mark : Byte) (c : Word) (h : crc16 (List.replicate 2048 0xFF) = c) :
    trailerOf 4 (pooled mark c) = some { gen := 3, chan := 3, lower := true, isComplete := decide (mark = 0xA5)
                                         icrc := c, fcrc := 0 } := by
  have e1 : nvReadBytes (pooled mark c) (64 * (poolPage 4 + 32)) 14 =
      trailerBody mark c ++ leBytes 2 (crc16 (trailerBody mark c)).toNat := by
    rw [pooled, read_written _ _ _ _ (Nat.le_refl _) (by simp [trailerBody, leBytes]), Nat.sub_self, List.drop_zero,
      List.take_of_length_le (by simp [trailerBody, leBytes])]
  have e2 : poolImage 4 (pooled mark c) = List.replicate 2048 0xFF := read_blank _ _ _ _ (by decide)
  have e3 : (trailerBody mark c).length = 12 := by simp [trailerBody, leBytes]
  have hc := crc_bytes (crc16 (trailerBody mark c))
  have hi := crc_bytes c
  have em : (ofLe [mark, mark] = 0xA5A5) = (mark = 0xA5) := by
    simp only [ofLe, eq_iff_iff]
    constructor
    · intro hm; apply BitVec.eq_of_toNat_eq; have := mark.isLt; simp; omega
    · rintro rfl; rfl
  rw [trailerOf, e1, e2, h]
  simp only [← e3, List.take_left, List.drop_left, hc, if_true, Option.some.injEq, Trailer.mk.injEq]
  simp only [trailerBody, leBytes, List.cons_append, List.nil_append, List.drop_succ_cons, List.drop_zero,
    List.take_succ_cons, List.take_zero] at hi ⊢
  simp only [em, hi]
  simp [ofLe]
theorem trailerOf_blank (mark : Byte) (c : Word) (q : Nat) (hq : q < 4) : trailerOf q (pooled mark c) = none := by
  have hp : 64 * (poolPage q + 32) + 14 ≤ 64 * (poolPage 4 + 32) := by unfold poolPage; omega
  have hn : ¬crc16 ((List.replicate 14 (0xFF : Byte)).take 12) =
      BitVec.ofNat 16 (ofLe ((List.replicate 14 (0xFF : Byte)).drop 12)) := by decide +kernel
  rw [trailerOf, pooled, read_blank _ _ _ _ hp, if_neg hn]
theorem witness_RestoresAtRelease_case (mark : Byte) : ∃ c, bestSlot (fun t => decide (t.chan = 3)) (pooled mark c) =
      some (4, { gen := 3, chan := 3, lower := true, isComplete := decide (mark = 0xA5), icrc := c, fcrc := 0 }) ∧
    bestSlot (fun t => decide (t.chan = 0)) (pooled mark c) = none := by
  obtain ⟨c, h⟩ : ∃ c, crc16 (List.replicate 2048 0xFF) = c := ⟨_, rfl⟩
  exact ⟨c, by simp [bestSlot, trailerOf_pooled mark c h, trailerOf_blank]⟩
theorem witness_RestoresAtRelease_fits (t : Trailer) : fcrcFits 3 t State.reset = true := by
  simp only [fcrcFits]
  rw [show (([0, 1, 2, 3, 4, 5, 6, 7] : List Nat).any fun p =>
    decide ((State.reset.fm.ch.get 3).active = presetImage (BitVec.ofNat 3 p))) = false by decide +kernel]
  rfl
/-- An interrupted session in start-up, and one whose lockout started before the clock was lost. -/
def cutState : State := { cutSession 0 with pwr := { (cutSession 0).pwr with migrated := true } }
def lostClock : State :=
  { migratedState with
    pwr := { migratedState.pwr with rtcLost := true }
    nv := { Nv.reset with ring := Nv.reset.ring.set 1 (some { slot := 0, seq := 0xFFFFFFFD, value := 5 }) } }
theorem witness_StartupRecovery : powerupDigestDue migratedState = true ∧ digestFree migratedState = true ∧
    powerupDigestDue cutState = true ∧ powerupDigestDue lostClock = true ∧ lostClock.pwr.rtcLost = true ∧
    5 ≤ (sealRecord lostClock).fails.toNat ∧ sessionOpen migratedState = false ∧ sessionOpen cutState = true ∧
    cutState.imp.next < 3968 ∧ (∀ i < 16, nvByte cutState (0x10000 + 16 * cutState.imp.next + i) = 0xFF) ∧
    { migratedState with imp := { Imprint.reset with last11 := some 7 } }.imp.last11 = some 7 ∧
    migratedState.imp.last11 = none := by decide +kernel
theorem witness_StartupRecovery_good : RingsUsable migratedState ∧ RingsUsable lostClock ∧
    (∀ c, lostClock.nv.ring.get 1 = some c → c.seq.toNat < 0xFFFFFFFE) ∧ MemoryGood lostClock := by
  refine ⟨by unfold RingsUsable; decide +kernel, by unfold RingsUsable; decide +kernel, ?_, good_of_empty _ rfl rfl rfl rfl rfl⟩
  intro c h
  rw [show lostClock.nv.ring.get 1 = some { slot := 0, seq := 0xFFFFFFFD, value := 5 } from rfl] at h
  cases h; decide
theorem witness_PowerFailBegins : mrState.pwr.phase = .makeready ∧ mrState.nv.running = none ∧
    busyState.nv.running ≠ none := by decide

/-- A shadow store in progress, in a phase. -/
def storeState (cmd : Bool) (p : Phase) : State :=
  { inPhase p with nv := { Nv.reset with running := some (.store cmd true [] 1000000) } }
theorem witness_ShadowStoreEnds :
    (storeState false .powerFail).nv.running = some (.store false true [] 1000000) ∧
    (storeState false .powerFail).pwr.phase = .powerFail ∧ bkpSupplied (storeState false .powerFail) = true ∧
    bkpSupplied { storeState false .powerFail with pwr :=
      { (inPhase .powerFail).pwr with bkpOnVdd := false, vbat := false } } = false ∧
    (storeState true .run).nv.running = some (.store true true [] 1000000) ∧ sysLive (storeState true .run) = true := by
  decide +kernel
/-- A host page and a ring write that VCAP cuts short. -/
def cutPage : State := { inPhase .powerFail with nv := { Nv.reset with running := some (.hostPage 511 [(31, 5)]) } }
def cutRing : State := { inPhase .powerFail with nv := { Nv.reset with running := some (.hostRing 2 7) } }
theorem witness_ShadowStoreEnds_torn : opWords (.hostPage 511 [(31, 5)]) cutPage = [16383] ∧ 5 / 2 ∉ ([16383] : List Nat) ∧
    nextSlot 2 cutRing = some (0, 1) := by decide +kernel
theorem witness_ShadowStoreEnds_good : MemoryGood cutPage ∧ MemoryGood cutRing :=
  ⟨good_of_empty _ rfl rfl rfl rfl rfl, good_of_empty _ rfl rfl rfl rfl rfl⟩
theorem witness_SupplyChanges : runState.pwr.bkpOnVdd = true ∧
    { inPhase .lockup with pwr := { (inPhase .lockup).pwr with bkpOnVdd := false } }.pwr.phase = .lockup ∧
    { inPhase .lockup with pwr := { (inPhase .lockup).pwr with bkpOnVdd := false } }.pwr.bkpOnVdd = false ∧
    (inPhase .powerFail).pwr.phase = .powerFail := by decide

/-- RUN with mail, and with every LIVE condition holding since the last boundary. -/
def mailState : State :=
  { runState with bkp := { Bkp.reset with mailbox := [{ event := 0x2E0, time := 0, frac := 0 }], fullSignal := true } }
def heldLiveState : State := { liveState with sys := { liveState.sys with liveHeld := true } }
theorem witness_HeartbeatMailboxAndSelfChecks : busLive runState = true ∧ sysLive liveState = true ∧
    liveState.sys.hbFresh = true ∧ heldLiveState.sys.liveHeld = true ∧ liveAll heldLiveState = true ∧
    sysLive mailState = true ∧ mailState.bkp.mailbox = { event := 0x2E0, time := 0, frac := 0 } :: [] ∧
    mailState.bkp.fullSignal = true ∧ bitOf mailState.ev.held 0x3D3 = false ∧ bitOf mailState.ev.held 0x3E0 = false ∧
    mailState.ev.act = false := by decide +kernel
theorem witness_HeartbeatMailboxAndSelfChecks_parity :
    bitOf { mailState with sys := { mailState.sys with parity := 0x10000 } }.sys.parity 16 = true ∧
    bitOf mailState.ev.held 0x3E2 = false ∧ bitOf mailState.sys.parity 16 = false := by decide +kernel

/-! ## Witnesses: the host bus and the window -/

/-- A partial element is staged at words of the selected array. -/
def staged (base : Nat) (words : List (Nat × Word)) (s : State) : State :=
  { s with bus := { s.bus with stage := some { base := base, words := words } } }

theorem witness_RegisterAccesses : busLive runState = true ∧ (0x3C : BitVec 6) ∈ ([0x00, 0x3C] : List (BitVec 6)) := by decide
theorem witness_WindowSelection : busLive runState = true ∧ runState.bus.stage = none ∧
    (staged 0 [(0, 1)] runState).bus.stage ≠ none := by decide
theorem witness_WindowSelection_advance : busLive (atWindow 0 63 runState) = true ∧
    isRowOf (.evstatClear 1) 1 (atWindow 0 63 runState) ∧
    isRowOf (.neverWritableArrayWrite 1) 1 (atWindow 15 0 runState) := by
  unfold isRowOf; decide +kernel

/-- A snapshot of counter 21 is held, the window at its last word. -/
def snapState : State :=
  { atWindow 2 65 runState with
    bus := { (atWindow 2 65 runState).bus with snap := some { array := 2, sub := 0, base := 63, words := [1, 2, 3] } } }
theorem witness_WindowReads : busLive (atWindow 0 63 runState) = true ∧
    winInRange (atWindow 0 63 runState) = true ∧ (elementAt 0 63).2 = 1 ∧
    winInRange (atWindow 2 189 runState) = true ∧ (elementAt 2 189).2 ≠ 1 ∧ (elementAt 2 189).1 = 189 ∧
    winInRange (atWindow 2 191 runState) = true ∧ snapHere (atWindow 2 191 runState) = none ∧
    winInRange snapState = true ∧ (elementAt 2 65).1 ≠ 65 ∧ snapHere snapState = some [1, 2, 3] ∧
    winInRange (atWindow 2 192 runState) = false := by decide +kernel
/-- The page of word 0 of NVARR, and the page of the first log entry, is being programmed; words of NVARR with errors. -/
def programming (op : ArrayOp) : State := { runState with nv := { Nv.reset with running := some op } }
def flawed (f : Flaw) : State := { runState with nv := { Nv.reset with flaws := [(0, f)] } }
theorem witness_WindowReads_checks :
    busyPage (atWindow 10 0 (programming (.hostPage 0 []))) = some (0 / 32) ∧ winInRange (atWindow 10 0 (flawed .two)) = true ∧
    busyPage (atWindow 10 0 (flawed .two)) ≠ some (0 / 32) ∧ (nvRead (flawed .two) 0).2 = 2 ∧
    (nvRead (flawed (.one 0)) 0).2 = 1 ∧ winInRange (atWindow 12 0 runState) = true ∧
    busyPage (atWindow 12 0 (programming (.imprint 0 1))) = some (1024 + 0 / 32) ∧ busyPage (atWindow 12 0 runState) = none ∧
    (staged 0 [(0, 1)] runState).bus.stage ≠ none := by decide +kernel
theorem witness_EventWordWrites : busLive (atWindow 0 63 runState) = true ∧ (63 : BitVec 24).toNat < 64 ∧
    (atWindow 0 63 runState).bus.array = 0 ∧ (atWindow 1 0 runState).bus.array = 1 := by decide
theorem witness_EventWordWrites_preset : busLive (atWindow 2 189 runState) = true ∧
    (atWindow 2 189 runState).bus.addr.toNat = 3 * 63 ∧ (leaveStage (served (atWindow 2 189 runState))).bus.stage = none ∧
    (leaveStage (served (staged 189 [(0, 5)] (atWindow 2 190 runState)))).bus.stage =
      some { base := 3 * 63, words := [(0, 5)] } ∧
    (leaveStage (served (staged 189 [(0, 5), (1, 6)] (atWindow 2 191 runState)))).bus.stage =
      some { base := 3 * 63, words := [(0, 5), (1, 6)] } := by decide +kernel
theorem witness_TwoWordElements_rows : isRowOf (.fkprogWrite 1) 1 (atWindow 9 62 mrState) ∧
    isRowOf (.calsetWrite 1) 1 (atWindow 6 65 mrState) ∧ isRowOf (.formeEditWrite 1) 1 (atWindow 3 0 mrState) ∧
    isRowOf (.caseWrite 1) 1 (atWindow 5 1023 mrState) := by
  refine ⟨?_, ?_, ?_, ?_⟩ <;> (unfold isRowOf; decide)
theorem witness_TwoWordElements : winInRange (atWindow 9 62 mrState) = true ∧ windowRefusal (atWindow 9 62 mrState) 62 = none ∧
    (leaveStage (served (atWindow 9 62 mrState))).bus.stage = none ∧
    (leaveStage (served (staged 62 [(0, 7)] (atWindow 9 63 mrState)))).bus.stage = some { base := 2 * 31, words := [(0, 7)] } ∧
    windowRefusal (atWindow 6 65 mrState) 65 = none ∧ windowRefusal (atWindow 3 0 mrState) 0 = none ∧
    windowRefusal (atWindow 5 1023 mrState) 1023 = none := by decide +kernel

/-- A transaction open on region 0. -/
def txnState : State := { runState with sh := { Shadow.reset with staging := some (List.replicate 512 0) } }
/-- The page buffer holds word 3 of page 0. -/
def loadedState : State := { runState with nv := { Nv.reset with bufPage := some 0, bufWords := [(3, 1)] } }
theorem witness_QueueBufferAndShadowWrites : winInRange (atWindow 8 15 runState) = true ∧
    windowRefusal (atWindow 8 15 runState) 15 = none ∧ winInRange (atWindow 10 0xFFFF runState) = true ∧
    (3, 1) ∈ (atWindow 10 3 loadedState).nv.bufWords ∧ inRegion (atWindow 11 0x7FF runState) 0x7FF = false ∧
    inRegion (atWindow 11 255 txnState) 255 = true ∧ txnState.sh.busy = false := by decide +kernel
theorem witness_QueueBufferAndShadowWrites_good : MemoryGood (atWindow 11 0x7FF runState) ∧
    txnState.sh.staging = some (List.replicate 512 0) ∧ (List.replicate 512 (0 : Byte)).length = 512 :=
  ⟨good_of_empty _ rfl rfl rfl rfl rfl, rfl, List.length_replicate⟩
theorem witness_WindowRefusals : isRowOf (.evenWrite 1) 1 (atWindow 1 64 runState) ∧
    winInRange (atWindow 1 64 runState) = false ∧ isRowOf (.calsetWrite 1) 1 (atWindow 6 0 runState) ∧
    windowRefusal (atWindow 6 0 runState) 0 = some 0x24 ∧ winInRange (atWindow 13 3 runState) = true ∧
    neverWritable (atWindow 13 3 runState) = true ∧ inMakeready runState = false ∧
    isLegal 0 (modFe 0 (fun c => { c with cls := true }) runState) = true ∧ (atWindow 9 0 runState).bus.array ≠ 3 := by
  unfold isRowOf; decide +kernel

/-! ## Witnesses: events and the seal -/

theorem witness_EventSummaries : busLive runState = true := by decide

/-- Injection armed; an injection in progress, of a detector of the front end and of the guard. -/
def armedState : State := { runState with ev := { Events.reset with armed := true } }
def injecting (id : BitVec 10) (tested : Bool) : State :=
  { runState with ev := { Events.reset with act := true, evid := id, evaluated := tested, answered := tested } }
/-- MAKEREADY with CH_0 running and injection armed. -/
def clocked (armed : Bool) : State :=
  modFe 0 (fun c => { c with state := .running }) { mrState with ev := { Events.reset with armed := armed } }
theorem witness_Injection : busLive runState = true ∧ injectAllowed (fieldOf (0x2E0 : Word) 0 10) runState = false ∧
    injectAllowed (fieldOf (0x350 : Word) 0 10) armedState = true ∧ isDetector 0x350 = false ∧
    injectAllowed (fieldOf (0x3C0 : Word) 0 10) armedState = true ∧ isDetector 0x3C0 = true ∧
    isClockDetector 0x3C0 = false ∧ isDetector 0x48 = true ∧ injectAllowed 0x48 (clocked true) = true ∧
    (injecting 0x40 true).ev.act = true ∧ (injecting 0x40 true).ev.evaluated = true ∧
    (injecting 0x40 false).ev.evaluated = false ∧ isFrisketEvent (injecting 0x40 true).ev.evid.toNat = false ∧
    isFrisketEvent (injecting 0x35F false).ev.evid.toNat = true ∧ nextPosition (injecting 0x2E0 false) < 4030 ∧
    (injecting 0x2E0 false).imp.queue.length < 28 ∧ sysLive (injecting 0x40 true) = true := by decide +kernel
/-- A forced evaluation finds the condition where the path has not failed, which is a free value (log entry 49). -/
theorem witness_Injection_forced (h : Config.pathFailed 0x40 = false) : injected 0x40 (injecting 0x40 false) = true := by
  rw [injected, h]; decide +kernel

/-- Token words stored so far; the log at its last ordinary position and beyond it; the slots SIGN and VER present. -/
def tokenState (n : Nat) (pos : Nat) : State :=
  { runState with sl := { Seal.reset with token := List.replicate n 0 }, imp := { Imprint.reset with next := pos } }
def keyedMr : State := { mrState with key := { Keys.reset with pres := 5 } }
theorem witness_SealRegisterWrites : busLive mrState = true ∧ mrState.pwr.phase ≠ .run ∧
    (tokenState 14 0).pwr.phase = .run ∧ (tokenState 14 0).sl.opening = .idle ∧ (tokenState 14 0).sl.token.length < 15 ∧
    15 ≤ (tokenState 15 4032).sl.token.length ∧ 4031 < (tokenState 15 4032).imp.next ∧
    (tokenState 15 4031).imp.next ≤ 4031 ∧ inMakeready keyedMr = true ∧ isClosing keyedMr = false ∧
    bitOf keyedMr.key.pres 0 = true ∧ bitOf keyedMr.key.pres 2 = true := by decide +kernel

/-- A step of an opening, and a step of a closing. -/
def openingState (o : Opening) : State := { runState with sl := { Seal.reset with opening := o } }
def closingState (c : Closing) : State := { keyedMr with sl := { Seal.reset with closing := c, incr := .done } }
theorem witness_SealSequences : sysLive runState = true ∧
    (openingState (.checking false false true)).sl.opening = .checking false false true ∧
    nextPosition (openingState (.checking false false true)) < 4029 ∧
    (openingState (.checking true false false)).sl.opening = .checking true false false ∧
    (openingState (.opened true)).sl.opening = .opened true ∧ nextPosition (openingState (.opened true)) < 4030 ∧
    closingDue (closingState .waiting) = true ∧ (closingState .waiting).imp.next < 3968 ∧
    (closingState .recorded).sl.closing = .recorded := by decide +kernel

/-! ## Witnesses: the front end -/

/-- A channel in a state. -/
def chanIn (st : ChanState) (s : State) : State := modFe 0 (fun c => { c with state := st }) s
/-- A channel of the legal class. -/
def legalCh (s : State) : State := modFe 0 (fun c => { c with cls := true }) s
theorem witness_ExcitationAndChannelFields : inMakeready runState = false ∧ busLive mrState = true ∧
    atRest 0 (chanIn .running mrState) = false ∧ excctlBad 0xC000 = true ∧ (∀ k : Chan, atRest k mrState = true) ∧
    excctlBad 0x2200 = false ∧ isClosing mrState = false ∧ mrState.sl.incr = .done ∧
    (inPhase .makeready).sl.incr = .none ∧ legalRoom 0 (inPhase .makeready) = true ∧
    (0x2220 : Word) &&& 0xFFE0 ≠ excctlWord (inPhase .makeready) ∧ isLegal 0 runState = false ∧
    atRest 0 (chanIn .running runState) = false ∧ chctlChange 0 0x1000 (chanIn .running runState) ≠ 0 ∧
    isLegal 0 (legalCh runState) = true ∧ chctlChange 0 0 (legalCh runState) ≠ 0 := by decide +kernel
theorem witness_StartAndStopRequests : busLive runState = true ∧ bitOf (0x0002 : Word) 14 = false ∧
    bitOf (0x4000 : Word) 14 = true ∧ bitOf (0x0100 : Word) 8 = true ∧ bitOf (0x8000 : Word) 15 = true ∧
    runState.sys.xrun = true ∧ { runState with fe := { Front.reset with cancelWait := true } }.fe.cancelWait = true ∧
    bitOf (0x0000 : Word) 8 = false ∧
    fieldOf (0xC100 : Word) 0 4 = 0 ∧ { runState with fe := { Front.reset with armed := true, armWait := 2 } }.fe.armWait ≠ 0 ∧
    { runState with fe := { Front.reset with armed := true } }.fe.armWait = 0 ∧
    runState.pwr.vddio = true ∧ { runState with fe := { Front.reset with armed := true } }.fe.armed = true := by decide

/-- A start of every channel waits; CH_0 has a forme, CH_1 runs, CH_2 has none, CH_3 a load in progress. -/
def startState : State :=
  let s := { runState with fe := { Front.reset with starts := [0xF] }, nv := { Nv.reset with
    legal := [{ kind := .forme 3 false 0 (Vector.replicate 64 0), pages := [(540, [])] }] } }
  modFm 0 (fun c => { c with valid := true }) (modFe 1 (fun c => { c with state := .running }) s)
/-- A stop of CH_0 and CH_1 waits; CH_0 runs. -/
def stopState : State := chanIn .running { runState with fe := { Front.reset with stops := [3] } }
theorem witness_StartsAndStopsTakeEffect : sysLive startState = true ∧ startState.sys.xrun = true ∧
    startState.pwr.phase ≠ .startup ∧ startState.fe.starts = [0xF] ∧ atRest 0 startState = true ∧
    (startState.fm.ch.get 0).valid = true ∧ loadBusy 0 startState = false ∧ calBusy 0 startState = false ∧
    atRest 1 startState = false ∧ (startState.fm.ch.get 2).valid = false ∧ loadBusy 3 startState = true ∧
    stopState.fe.stops = [3] ∧ atRest 0 stopState = false ∧ atRest 1 stopState = true ∧ bitOf (3 : BitVec 4) 2 = false := by
  decide +kernel
theorem witness_StartsAndStopsTakeEffect_store :
    calBusy 0 { startState with nv := { Nv.reset with legal := [{ kind := .cal 0 0 identitySet, pages := [(560, [])] }] } } = true ∧
    atRest 2 startState = true ∧ (∀ k : Chan, atRest k { stopState with fe := Front.reset } = true) ∧
    (∃ k : Chan, atRest k (chanIn .running stopState) = false) := by decide +kernel

/-- CH_0 waits for E; CH_0 has settled; the generator runs with a phase. -/
def waitingState : State := modFe 0 (fun c => { c with state := .starting, waitE := true }) runState
def settledCh : State := modFe 0 (fun c => { c with state := .starting, drv := true }) runState
def generating (phase : Nat) : State :=
  modFe 0 (fun c => { c with state := .running, drv := true }) { runState with fe := { Front.reset with gen := true, phase := phase } }
theorem witness_ExcitationSteps : sysLive runState = true ∧ runState.sys.xrun = true ∧ isE 0 waitingState = true ∧
    waitingState.fe.gen = false ∧ (settledCh.fe.ch.get 0).state = .starting ∧ (settledCh.fe.ch.get 0).drv = true ∧
    (settledCh.fe.ch.get 0).settle = 0 ∧ (generating 3072).fe.gen = true ∧ isDc (generating 3072) = false ∧
    halfPeriod (generating 3072) ≤ (generating 3072).fe.phase ∧ gapEnds 0 (generating 31) = true ∧
    bitOf (generating 31).ev.held 0x41 = false := by decide +kernel
/-- A gap reading of a sound bridge, of a short target and of an open sense lead, and a 64th gap. -/
def soundBridge : BridgeReading := { drops := 0, leadP := 0, leadN := 0, offTarget := 0, openSense := none }
theorem witness_ExcitationSteps_gap : ampOutside 0 5000000 (sensedUv 0 5000000 soundBridge) = false ∧
    ampOutside 0 5000000 (sensedUv 0 5000000 { soundBridge with drops := 1300000 }) = true ∧
    leadExcess 1000000 { soundBridge with leadP := 100001 } = true ∧ senseOpen soundBridge = false ∧
    senseOpen { soundBridge with leadP := 500000 } = false ∧ senseOpen { soundBridge with leadP := 500001 } = true ∧
    senseOpen { soundBridge with leadN := -500001 } = true ∧ senseOpen { soundBridge with openSense := some 0 } = true ∧ openTestGap 0 (generating 31) = false ∧
    openTestGap 0 (modFe 0 (fun c => { c with gaps := 64 }) (generating 31)) = true ∧
    isLegal 0 (legalCh (generating 31)) = true := by decide +kernel

def modResetState (n : Nat) : State := modFe 0 (fun c => { c with modReset := some n }) runState
/-- A NODE in or out of membership, a load and a copy in their last turns, a numbered sample set. -/
def working (left : Nat) : State := { runState with
  sys := { Sys.reset with sets := [4] }
  fm := { Forme.reset with load := some { ch := 0, preset := none, image := presetImage 7, left := left } }
  cs := { Cases.reset with copy := some { ch := 0, lower := true, left := left } } }
theorem witness_EngineTurns : sysLive runState = true ∧ runState.sys.xrun = true ∧
    ((modResetState 32).fe.ch.get 0).modReset = some 32 ∧ (runState.fe.ch.get 0).drv = false ∧
    isNode (nodeState .member) = true ∧ (nodeState .member).gl.trimNow = true ∧ (nodeState .join).gl.state ≠ .member ∧
    { nodeState .member with gl := { (nodeState .member).gl with trimNow := false } }.gl.trimNow = false ∧
    bitOf (0x8001 : BitVec 17) 15 = true ∧ bitOf runState.ev.held 0x3CF = false ∧ bitOf runState.ev.held 0x3E1 = false ∧
    (working 1).sys.sets = 4 :: [] ∧ (6 : Nat) ≠ 4 + 1 ∧ (working 1).fm.load.map (·.left) = some 1 ∧
    (working 2).fm.load.map (·.left) = some 2 ∧ (working 1).cs.copy.map (·.left) = some 1 := by decide +kernel

/-- CH_0 runs a forme, with its calibration in use or not; outputs of one stream. -/
def pathState (raw : BitVec 4) (chen : BitVec 4) (fifo : List Record) : State :=
  modFm 0 (fun c => { c with active := presetImage 7, valid := true })
    (modFe 0 (fun c => { c with state := .running, drv := true })
      { runState with fm := { Forme.reset with raw := raw, chen := chen, tapen := chen, fifo := fifo } })
theorem witness_SamplePath : sysLive (pathState 0 1 []) = true ∧ (pathState 0 1 []).sys.xrun = true ∧
    (∀ j : Chan, j ≠ 0 → ((pathState 0 1 []).fe.ch.get j).drv = false) ∧
    ((pathState 0 1 []).fe.ch.get 0).drv = true ∧ ((pathState 0 1 []).fe.ch.get 0).state = .running ∧
    ((pathState 0 1 []).fe.ch.get 0).modReset = none ∧ (pathState 0 1 []).ev.act = false ∧
    (pathState 0 1 []).sys.patch = false ∧ (pathState 0 1 []).fm.load = none ∧
    amplitudeLow (sensedUv 0 5000000 soundBridge) = false ∧
    beyondLinear ((pathState 0 1 []).fe.ch.get 0) (sensedUv 0 5000000 soundBridge) 12500000 = false ∧
    beyondLinear ((pathState 0 1 []).fe.ch.get 0) (sensedUv 0 5000000 soundBridge) 12500001 = true ∧
    bitOf (pathState 1 1 []).fm.raw 0 = true := by decide +kernel
theorem witness_SamplePath_outputs : bitOf (pathState 0 1 []).fm.chen 0 = true ∧ bitOf (pathState 0 0 []).fm.chen 0 = false ∧
    bitOf (pathState 0 1 []).fm.tapen 0 = true ∧
    (pathState 0 1 (List.replicate 511 { value := 0, tag := 0 })).fm.fifo.length < 512 ∧
    512 ≤ (pathState 0 1 (List.replicate 512 { value := 0, tag := 0 })).fm.fifo.length ∧
    ((pathState 0 1 []).fm.ch.get 0).outs = finalSettle [] := by
  refine ⟨by decide, by decide, by decide, ?_, ?_, by decide⟩
  · show (List.replicate 511 _).length < 512
    rw [List.length_replicate]; decide
  · exact Nat.le_of_eq List.length_replicate.symm
/-- A forme whose motion detector comes first, at its second sample. -/
def motionOps : List StageOp := [.motion 2 0 5, .cal]
def motionState (ref : Int) : State := modFm 0 (fun c => { c with consumed := 2, ref := ref, stable := true }) runState
theorem witness_SamplePath_motion : motionOps.find? isMotion = some (.motion 2 0 5) ∧
    stagesAhead isMotion motionOps = some [] ∧
    settleCount [] < ((motionState 0).fm.ch.get 0).consumed / decimation [] ∧ (narrow 0).natAbs < 2 ^ 31 ∧
    (narrow 0 - ((motionState 5).fm.ch.get 0).ref).natAbs ≤ 5 * 2 ^ 0 ∧
    5 * 2 ^ 0 < (narrow 0 - ((motionState 6).fm.ch.get 0).ref).natAbs ∧ ((motionState 6).fm.ch.get 0).stable = true ∧
    (runState.fm.ch.get 0).stable = false := by decide +kernel

/-- A gap at an mt, with Kern on, and the tone detector at work. -/
def gapState (phase : Nat) (bad : Bool) : State :=
  modFe 0 (fun c => { c with gapBad := bad })
    { generating phase with kern := { Kern.reset with en := 1 } }
def toneState (nm1 : Word) : State :=
  { runState with tone := { Tone.reset with busy := true, useNm1 := nm1 } }
theorem witness_KernAndToneSamples : sysLive (gapState 4 false) = true ∧ bitOf (gapState 4 false).kern.en 0 = true ∧
    inGap (gapState 4 false) = true ∧ (gapState 4 false).fe.phase + 1 < blankMt (gapState 4 false) ∧
    (gapState 31 false).fe.phase + 1 = blankMt (gapState 31 false) ∧
    ((gapState 31 true).fe.ch.get 0).gapBad = true ∧ ((gapState 31 false).kern.ch.get 0).susp = false ∧
    isDc (gapState 4 false) = false ∧ isDc { runState with fe := { Front.reset with mode := 2 } } = true ∧
    isNode runState = false ∧ (toneState 0).tone.busy = true ∧ (toneState 0).tone.useNm1.toNat = 0 ∧
    (toneState 0xFFFF).tone.block = none ∧ (toneState 0).kern.solves = [] := by decide +kernel
theorem witness_ClocksAndTemperatures : runState.sys.xrun = true ∧ atRest 0 runState = true ∧
    atRest 0 (chanIn .running runState) = false ∧
    { runState with sys := { Sys.reset with xrun := false } }.sys.xrun = false ∧ runState.sys.plllk = true ∧
    { runState with sys := { Sys.reset with plllk := false } }.sys.plllk = false ∧ runState.cal.extTurn = false ∧
    bitOf runState.ev.held 0x5E = false := by decide +kernel

/-! ## Witnesses: formes, cases, tone, calibration, Kern -/

/-- CH_0 with the words of a preset in its edit buffer. -/
def editState (p : BitVec 3) (s : State) : State := modFm 0 (fun c => { c with edit := presetImage p }) s
/-- A legal store in progress. -/
def storing (kind : StoreKind) (pages : List (Nat × List Byte)) (s : State) : State :=
  { s with nv := { Nv.reset with legal := [{ kind := kind, pages := pages }] } }
theorem witness_FormeLoads : rawChange 0x0010 (legalCh mrState) = true ∧ inMakeready (legalCh mrState) = true ∧
    (legalCh mrState).sl.incr = .done ∧ isClosing (legalCh mrState) = false ∧ legalRoom 0 (legalCh mrState) = true ∧
    rawChange 0 runState = false ∧ atRest 0 (chanIn .running runState) = false ∧
    loadBusy 3 (storing (.forme 3 false 0 (presetImage 0)) [] runState) = true ∧ isLegal 0 (legalCh runState) = true ∧
    isClosing (closingState .waiting) = true ∧ legalRoom 2 (legalCh mrState) = true := by decide +kernel
theorem witness_FormeLoads_checks : loaderCheck false (Vector.replicate 64 0) = some (1, 0) ∧
    loaderCheck (isLegal 0 runState) (loadSource 0 (editState 7 runState)) = none ∧
    loaderCheck (isLegal 0 (legalCh mrState)) (loadSource 0 (editState 0 (legalCh mrState))) = none := by decide +kernel
/-- A forme load whose pages have all committed. -/
def loadedForme : State := storing (.forme 0 false 0 (presetImage 0)) [] (legalCh mrState)
theorem witness_FormeLoads_end : sysLive loadedForme = true ∧
    formeDue loadedForme = some { kind := .forme 0 false 0 (presetImage 0), pages := [] } ∧ isLegal 0 loadedForme = true ∧
    nextPosition loadedForme < 4030 := by decide +kernel
/-- The load of a preset whose pages have all committed. -/
def loadedPreset : State := storing (.forme 0 true 7 (presetImage 7)) [] (legalCh mrState)
theorem witness_FormeLoads_preset :
    formeDue loadedPreset = some { kind := .forme 0 true 7 (presetImage 7), pages := [] } ∧ isLegal 0 loadedPreset = true ∧
    loadedPreset.sl.incr = .done ∧ nextPosition loadedPreset < 4030 := by decide +kernel

/-- The FIFO as SMPDAT reads it. -/
def fifoState (pos : Nat) (fifo : List Record) : State :=
  { runState with fm := { Forme.reset with pos := pos, fifo := fifo, snap := some { value := 7, tag := 1 } } }
theorem witness_SampleAndDelayReads : busLive (fifoState 0 [{ value := 1, tag := 2 }]) = true ∧
    (fifoState 0 [{ value := 1, tag := 2 }]).fm.fifo = { value := 1, tag := 2 } :: [] ∧
    (fifoState 0 [{ value := 1, tag := 2 }]).fm.sink = false ∧ (fifoState 1 []).fm.snap = some { value := 7, tag := 1 } ∧
    (fifoState 2 []).fm.pos = 2 ∧ (fifoState 0 []).fm.fifo = [] := by decide
theorem witness_SampleAndDelayReads_parity :
    bitOf { runState with sys := { Sys.reset with parity := 0x1000 } }.sys.parity 12 = true ∧
    bitOf runState.ev.held 0x3CC = false ∧ { runState with fm := { Forme.reset with sink := true } }.fm.sink = true := by
  decide +kernel
theorem witness_CaseCopiesAndSwitches_rest : busLive runState = true ∧ (3 : Chan).val = fieldOf (0xF000 : Word) 12 2 ∧
    bitOf (0xF000 : Word) 7 = false ∧ isLegal 3 runState = false ∧ atRest 3 runState = true ∧ loadBusy 3 runState = false ∧
    anyCaseStore runState = false := by decide

/-- CH_0 in a fade that has run its frames; a case store that has committed. -/
def fadedState : State :=
  modCs 0 (fun c => { c with fade := some { tgt := true, xflen := 4, begun := true, frames := 16 } }) runState
def casedState : State := storing (.case 0 4 0 true true false) [] (legalCh mrState)
theorem witness_CaseCopiesAndSwitches : bitOf (0x8080 : Word) 15 = true ∧ caseAccepts 0 true runState = true ∧
    isLegal 0 runState = false ∧ caseAccepts 0 true (chanIn .running fadedState) = false ∧
    atRest 0 (chanIn .running runState) = false ∧ ((chanIn .running runState).cs.ch.get 0).fade = none ∧
    4 ≤ fieldOf (0x0400 : Word) 8 4 ∧ fieldOf (0x0C00 : Word) 8 4 ≤ 12 ∧ isLegal 0 (legalCh runState) = true ∧
    legalRoom 1 (legalCh mrState) = true ∧ atRest 0 (legalCh mrState) = true ∧
    committedStore isCaseKind casedState = some { kind := .case 0 4 0 true true false, pages := [] } ∧
    nextPosition casedState < 4030 ∧ sysLive fadedState = true ∧
    (fadedState.cs.ch.get 0).fade = some { tgt := true, xflen := 4, begun := true, frames := 16 } := by decide +kernel

/-- GRPDLY with a snapshot held, and a channel with a valid forme. -/
def delayState (pos : Nat) : State :=
  modFm 0 (fun c => { c with valid := true }) { runState with cs := { Cases.reset with gdPos := pos, gdSnap := some (9, 8) } }
theorem witness_SampleAndDelayReads_delay : busLive (delayState 0) = true ∧
    ((delayState 0).fm.ch.get (chanOf (delayState 0).cs.gdCh)).valid = true ∧ (delayState 0).cs.gdPos = 0 ∧
    (delayState 1).cs.gdSnap = some (9, 8) ∧ (delayState 1).cs.gdPos = 1 ∧ (delayState 2).cs.gdPos = 2 := by decide

/-- A forme with a tone stage; a result that is due. -/
def toneForme : State :=
  modFm 0 (fun c => { c with valid := true, active := imageOf [0x4B010300, 0x60000000, 0] }) runState
def toneBlock : ToneBlock := { n := 64, re := 0, im := 0, skipped := true }
def dueState : State := { runState with tone := { Tone.reset with due := some toneBlock, rdy := true, above := true, thenBit := true } }
theorem witness_ToneDetector : runState.tone.dph = false ∧
    { runState with tone := { Tone.reset with dph := true } }.tone.dph = true ∧ bitOf (0x4000 : Word) 13 = false ∧
    toneRefused runState = true ∧ toneRefused toneForme = false ∧ toneForme.tone.due = none ∧ sysLive dueState = true ∧
    dueState.tone.due = some toneBlock ∧ dueState.tone.rdy = true := by decide +kernel

/-- CH_3 with a set that passes every check; a store of it that has committed. -/
def setState (s : State) : State := modCal 3 (fun c => { c with buf := identitySet }) s
def calDone : State := storing (.cal 3 1 identitySet) [] mrState
theorem witness_CalibrationStores : (3 : Chan).val = fieldOf (0xB000 : Word) 12 2 ∧ bitOf (0xB000 : Word) 14 = false ∧
    inMakeready runState = false ∧ isClosing (closingState .waiting) = true ∧ bitOf (0xB000 : Word) 11 = mrState.cal.txen ∧
    calCheck 3 mrState ≠ 0 ∧ calCheck 3 (setState mrState) = 0 ∧ legalRoom 1 (setState mrState) = true ∧
    legalRoom 1 { setState (inPhase .makeready) with imp := { Imprint.reset with next := 4029 } } = false ∧
    bitOf (0x7000 : Word) 15 = false ∧ bitOf (0xF000 : Word) 14 = true ∧
    committedStore isCalKind calDone = some { kind := .cal 3 1 identitySet, pages := [] } ∧ nextPosition calDone < 4030 := by
  decide +kernel

/-- Kern with an epoch full, a solve at its end, a correction that waits. -/
def epochState : State := modKern 0 (fun c => { c with samples := 2 ^ 20, pend := some (Vector.replicate 16 0) })
  { runState with kern := { Kern.reset with solves := [0, 2], solveLeft := 0 } }
theorem witness_KernSteps : sysLive epochState = true ∧ 2 ^ 20 ≤ (epochState.kern.ch.get 0).samples ∧
    epochState.kern.solves = 0 :: [2] ∧ epochState.kern.solveLeft = 0 ∧ epochState.kern.frz = false ∧
    bitOf epochState.kern.en 0 = true ∧ (epochState.kern.ch.get 0).pend ≠ none ∧ (epochState.kern.ch.get 0).late = false ∧
    (3 : Chan).val = fieldOf (0x00C0 : Word) 6 2 ∧ isLegal 3 runState = false ∧ isLegal 0 (legalCh runState) = true := by
  decide +kernel
/-- A correction far beyond one application, with sums within the limit. -/
def farList : List Int := [2 ^ 31 - 1, -(2 ^ 31) + 1] ++ List.replicate 14 0
theorem witness_KernSteps_move : farList.length = 16 ∧ (List.replicate 16 (0 : Int)).length = 16 ∧
    (∀ x ∈ farList ++ List.replicate 16 0, -(2 ^ 31) ≤ x ∧ x < 2 ^ 31) ∧ farList.sum.natAbs ≤ 16 ∧
    (List.replicate 16 (0 : Int)).sum.natAbs ≤ 16 := by decide

/-! ## Witnesses: the Galley link -/

theorem makeFrame_crc (key : BitVec 128) (sn sfn : W32) (nn : Option W32) (h : Word) (b : List Word) :
    crcGood (makeFrame key sn sfn nn h b) = true := by simp [crcGood, makeFrame]
theorem makeFrame_mac (key : BitVec 128) (sn sfn : W32) (nn : Option W32) (h : Word) (b : List Word) :
    macGood key sn sfn nn (makeFrame key sn sfn nn h b) = true := by simp [macGood, makeFrame]
/-- A frame with a wrong MAC and a correct CRC. -/
def forge (f : Frame) : Frame := { f with mac := f.mac + 1, crc := frameCrc f.header f.body (f.mac + 1) }
theorem forge_crc (f : Frame) : crcGood (forge f) = true := by simp [crcGood, forge]
theorem forge_mac (key : BitVec 128) (sn sfn : W32) (nn : Option W32) (h : Word) (b : List Word) :
    macGood key sn sfn nn (forge (makeFrame key sn sfn nn h b)) = false := by simp [macGood, forge, makeFrame]

/-- A HUB whose link runs; a NODE to which a restart comes. -/
def hubState : State := { runState with gl := { Galley.reset with state := .run, en := true } }
def restarted : State := { nodeState .member with gl := { (nodeState .member).gl with restart := true, keyed := true } }
theorem witness_SuperframeOrigins : sysLive hubState = true ∧ isNode hubState = false ∧ runState.gl.en = false ∧
    runState.gl.state = .off ∧ hubState.gl.en = true ∧ hubState.gl.state = .run ∧ hubState.gl.restart = false ∧
    { hubState with gl := { hubState.gl with en := false } }.gl.state = .run ∧
    hubState.gl.sfn ≠ 0xFFFFFFFF ∧ isNode restarted = true ∧ restarted.gl.state ≠ .off ∧ restarted.gl.en = true ∧
    restarted.gl.restart = true ∧ (nodeState .member).gl.restart = false ∧ bitOf hubState.key.pres 1 = false := by decide

/-- A beacon of SN 0 and SFN 5 with NMASK 0020h, and NODE 5, which has seen SFN 4. -/
def beaconBody : List Word := [0x0100, 7, 0, 0, 0, 5, 0, 0, 0, 0, 0x20]
def beacon : Frame := makeFrame 0 0 5 none (headerWord 1 0 11) beaconBody
def hearing (l : LinkState) (seen : W32) : State :=
  { nodeState l with gl := { (nodeState l).gl with bSfn := seen, good := 7, useAddr := 5 } }
theorem witness_NodeBeacons : nodeOn (hearing .lock 4) = true ∧ frameFits beacon = true ∧ frameType beacon = 1 ∧
    frameFits shortFrame = false ∧ (hearing .lock 4).gl.state ≠ .search ∧ majorOf (bodyWord beacon 0) = 1 ∧
    bodyPair beacon 7 = (hearing .lock 4).gl.sn ∧ (hearing .lock 4).gl.bSfn.toNat < (bodyPair beacon 5).toNat ∧
    (bodyPair beacon 5).toNat ≤ (hearing .member 5).gl.bSfn.toNat ∧ (hearing .search 0).gl.state = .search ∧
    (hearing .join 4).gl.state = .join ∧ bitOf (bodyWord beacon 10) (hearing .join 4).gl.useAddr.toNat = true ∧
    nodeTimed (hearing .member 4) = true ∧ (hearing .member 4).gl.missed < 3 ∧ (hearing .lock 4).gl.good = 7 ∧
    3 ≤ ({ hearing .member 4 with gl := { (hearing .member 4).gl with missed := 3 } }).gl.missed ∧
    (hearing .member 4).sys.lnklk = true ∧ (hearing .member 4).bus.localSeen = false := by decide +kernel
/-- A frame that the RX FIFO cannot hold, and beacons of another TYPE and of another major version. -/
def tooLong : Frame := { header := 0, body := List.replicate 61 0, mac := 0, crc := 0 }
def otherMajor : Frame := makeFrame 0 0 5 none (headerWord 1 0 11) [0x0200, 7, 0, 0, 0, 5, 0, 0, 0, 0, 0x20]
theorem witness_NodeBeacons_others : 64 < tooLong.body.length + 4 ∧ tooLong.body.length + 4 = 65 ∧
    frameFits otherMajor = true ∧ frameType otherMajor = 1 ∧ majorOf (bodyWord otherMajor 0) ≠ 1 ∧
    (hearing .search 0).gl.majorSeen = false ∧ (hearing .lock 4).gl.keyCut = false ∧
    { hearing .lock 4 with gl := { (hearing .lock 4).gl with keyCut := true } }.gl.keyCut = true ∧
    (999 * 786432 : Int).natAbs * 1000000000 < 1000 * 786432000 * 1000000000 ∧ nodeOn (hearing .search 0) = true := by
  decide +kernel
theorem witness_NodeBeacons_frames : crcGood beacon = true ∧
    crcGood { header := beacon.header, body := beacon.body, mac := beacon.mac, crc := beacon.crc + 1 } = false ∧
    macGood 0 (bodyPair beacon 7) (bodyPair beacon 5) none beacon = true ∧ crcGood (forge beacon) = true ∧
    macGood 0 (bodyPair (forge beacon) 7) (bodyPair (forge beacon) 5) none (forge beacon) = false := by
  refine ⟨makeFrame_crc .., by simp [crcGood, beacon, makeFrame], ?_, forge_crc _, ?_⟩
  · rw [show bodyPair beacon 7 = 0 from rfl, show bodyPair beacon 5 = 5 from rfl]; exact makeFrame_mac ..
  · rw [show bodyPair (forge beacon) 7 = 0 from rfl, show bodyPair (forge beacon) 5 = 5 from rfl]; exact forge_mac ..

/-- Uplinks of NODE 15 in superframe 5, in answer to an access of superframe 4. -/
def dataFrame : Frame := makeFrame 0 0 5 (some 0) (headerWord 2 15 15) (List.replicate 1 0 ++ [0x8104] ++ List.replicate 13 0)
def joinFrame : Frame := makeFrame 0 0 5 none (headerWord 3 15 15) ([1, 0, 0x0100, 7] ++ List.replicate 11 0)
def askedHub : State :=
  modNode 15 (fun n => { n with member := true, missed := 2, rtt := some 0, sentDly := 256 }) { hubState with gl := { hubState.gl with
    sfn := 5, job := some { bcast := false, localX := false, tgt := 15, nacc := 1, sent := some 4 } } }
theorem witness_UplinksAndMembership : isNode (nodeState .member) = true ∧ sysLive (nodeState .join) = true ∧
    hubSlot 15 askedHub = true ∧ frameFits dataFrame = true ∧ frameAddr dataFrame = (15 : Station).val ∧
    frameType dataFrame = 2 ∧ frameAddr dataFrame ≠ (1 : Station).val ∧ (askedHub.gl.node.get 15).rtt = some 0 ∧
    (2 * ((askedHub.gl.node.get 15).sentDly : Int) + 0 - 0).natAbs ≤ 512 ∧
    512 < (2 * ((askedHub.gl.node.get 15).sentDly : Int) + 1 - 0).natAbs ∧ (hubState.gl.node.get 15).rtt = none ∧
    confirms 15 dataFrame askedHub = true ∧ confirms 15 dataFrame hubState = false ∧ frameFits joinFrame = true ∧
    frameType joinFrame = 3 ∧ majorOf (bodyWord joinFrame 2) = 1 ∧ (askedHub.gl.node.get 15).missed = 2 ∧
    accessTo 15 askedHub = true ∧ accessTo 1 askedHub = false ∧ confirmationDue 15 askedHub = true := by decide +kernel
theorem witness_UplinksAndMembership_cut : { nodeState .member with gl := { (nodeState .member).gl with keyCut := true } }.gl.keyCut = true ∧
    (nodeState .lock).gl.state ≠ .member ∧ (nodeState .lock).gl.state ≠ .join ∧ (nodeState .member).gl.keyCut = false ∧
    majorOf (0x0200 : Word) ≠ 1 ∧ 64 < tooLong.body.length + 4 := by decide
theorem witness_UplinksAndMembership_frames : crcGood dataFrame = true ∧ macGood 0 0 5 (some 0) dataFrame = true ∧
    crcGood joinFrame = true ∧ macGood 0 0 5 none joinFrame = true ∧ crcGood (forge dataFrame) = true ∧
    macGood 0 0 5 (some 0) (forge dataFrame) = false :=
  ⟨makeFrame_crc .., makeFrame_mac .., makeFrame_crc .., makeFrame_mac .., forge_crc _, forge_mac ..⟩

/-- A unicast and a broadcast that wait, downlinks to the NODE of address 0, and a held access. -/
def jobHub (bcast : Bool) (sent : Option W32) : State :=
  { hubState with gl := { hubState.gl with job := some { bcast := bcast, localX := bcast, tgt := 2, nacc := 8, sent := sent } } }
def unicastFrame : Frame := makeFrame 0 0 0 (some 0) (headerWord 4 0 2) [0x003F, 7]
def broadcastFrame : Frame := makeFrame 0 0 0 none (headerWord 5 0 2) [0x003F, 7]
def heldState (refused : Bool) (c : Word) : State :=
  { nodeState .member with gl := { (nodeState .member).gl with
    held := some { pairs := [(c, 7)], sfn := 4, unicast := true, refused := refused } } }
theorem witness_RemoteAccess : busLive hubState = true ∧ isNode hubState = false ∧
    goRefused hubState = true ∧ goRefused { hubState with gl := { hubState.gl with bcast := true, nacc := 8 } } = false ∧
    fieldOf (0xC008 : Word) 0 4 = 8 ∧ 8 < fieldOf (0x8009 : Word) 0 4 ∧
    (jobHub false none).gl.state = .run ∧ linkPins (nodeState .lock) = true ∧ nodeTimed (nodeState .lock) = true ∧
    frameFits unicastFrame = true ∧ frameType unicastFrame = 4 ∧ frameAddr unicastFrame = (nodeState .lock).gl.useAddr.toNat ∧
    frameFits broadcastFrame = true ∧ frameType broadcastFrame = 5 ∧ frameFits shortFrame = false ∧
    sysLive (heldState false 0x803F) = true ∧ bitOf (0x803F : Word) 15 = true ∧ bitOf (0x003F : Word) 15 = false := by
  decide +kernel
/-- A broadcast to a member that cannot take one; a unicast to a member, with a read and without. -/
def calling (bcast : Bool) (caps : Byte) (control : Word) : State :=
  modNode 2 (fun n => { n with member := true, caps := caps })
    { hubState with gl := { hubState.gl with bcast := bcast, nacc := 1, tgt := 2, queue := hubState.gl.queue.set 0 control } }
theorem witness_RemoteAccess_refused : goRefused (calling true 0 0x003F) = true ∧ goRefused (calling true 2 0x003F) = false ∧
    goRefused (calling true 2 0x803F) = true ∧ goRefused (calling false 0 0x803F) = true ∧
    goRefused (calling false 1 0x803F) = false ∧ goRefused (calling false 0 0x003F) = false ∧
    (readCount (accessPairs 8 [0x803F, 0, 0x803E, 0])) = 2 := by decide +kernel
/-- A NODE in MAKEREADY, the increment of the session committed. -/
def mrNode (l : LinkState) : State :=
  { nodeState l with pwr := { (nodeState l).pwr with phase := .makeready }, sl := mrState.sl }
theorem witness_RemoteAccess_addr : inMakeready mrState = true ∧ isNode (mrNode .member) = true ∧
    inMakeready (mrNode .member) = true ∧ glctlChange 0x8005 (mrNode .member) = true ∧ bitOf (0x8005 : Word) 15 = true ∧
    isClosing (mrNode .member) = false ∧ (mrNode .member).sl.incr = .done ∧ legalRoom 0 (mrNode .member) = true ∧
    legalRoom 0 { mrNode .member with sl := Seal.reset } = true ∧ { mrNode .member with sl := Seal.reset }.sl.incr = .none ∧
    (mrNode .search).gl.state = .search := by decide +kernel
theorem witness_RemoteAccess_live : sysLive (busWrite 0x3F 7 (heldState false 0x003F)) = true ∧
    sysLive (busRead 0x3F (heldState false 0x803F)).2 = true := by decide +kernel
theorem witness_RemoteAccess_frames : crcGood unicastFrame = true ∧ macGood 0 0 0 (some 0) unicastFrame = true ∧
    crcGood broadcastFrame = true ∧ macGood 0 0 0 none broadcastFrame = true ∧ crcGood (forge unicastFrame) = true ∧
    macGood 0 0 0 (some 0) (forge unicastFrame) = false :=
  ⟨makeFrame_crc .., makeFrame_mac .., makeFrame_crc .., makeFrame_mac .., forge_crc _, forge_mac ..⟩
theorem witness_RemoteAccess_restart : glctlChange (glctlWord mrState) mrState = false ∧
    glctlChange 0x8000 runState = true ∧ inMakeready runState = false ∧ runState.gl.en = false ∧
    glctlChange (glctlWord (nodeState .off)) (nodeState .off) = false ∧ (nodeState .off).gl.state = .off ∧
    (nodeState .member).gl.state ≠ .off := by decide +kernel

/-! ## Witnesses: the guard, the key store and the composing port -/

/-- Source `i` answers with a zeroize: page 1 of FKRESP, or page 0. -/
def zeroizing : State := { runState with fk := { runState.fk with resp0 := 0xAAA, resp1 := 0x2AA, passOpen := true } }
theorem witness_FrisketPasses : runState.pwr.phase ≠ .unpowered ∧ runState.fk.bklow = false ∧
    { runState with fk := { runState.fk with bklow := true } }.fk.bklow = true ∧
    runState.fk.next.getD runState.fk.active = defaultProgram ∧ (runState.fk.src.get 6).armed = true ∧
    responseOf zeroizing.fk 6 = 2 ∧ zeroizing.key.clear = false ∧ zeroizing.fk.passOpen = true ∧
    { runState with key := { Keys.reset with clear := true } }.key.clear = true ∧ runState.sys.lfxrun = true ∧
    (zeroizing.fk.src.get 10).armed = true ∧ responseOf zeroizing.fk 10 = 2 ∧
    responseOf { runState.fk with resp1 := 0 } 10 ≠ 2 := by
  decide +kernel

/-- A calm pass, CALSW closed with a code at the lower limit. -/
def closedPass : PassReading :=
  { sysTimed := true, vbatMv := 3000, loop := Vector.replicate 4 { ohms := some 100000, hold := .free }
    switch := (Vector.replicate 3 { above := true, current := 0 }).set 2 { above := false, current := 5000 }
    envA := Vector.replicate 3 false, envB := Vector.replicate 3 false }
theorem witness_FrisketPasses_closed : (closedPass.switch.get 2).above = false ∧
    50 ≤ (closedPass.switch.get 2).current / 100 ∧ (closedPass.switch.get 2).current / 100 ≤ 150 := by decide

/-- Loop 3 driven high and held low, case input 1 beyond its limits, VBAT low on battery. -/
def loopProgram : Vector W32 32 := (Vector.replicate 32 (0 : W32)).set 0 0x18000000 |>.set 1 0x38000000
def caseProgram : Vector W32 32 := (Vector.replicate 32 (0 : W32)).set 0 0x54009632
def trippedLoop : State := { runState with fk := { runState.fk with active := loopProgram, lmode := 0x40 } }
def trippedCase : State := { runState with fk := { runState.fk with active := caseProgram, caseen := 2 } }
def trippedEnv : State := { inPhase .lockup with pwr := { (inPhase .lockup).pwr with bkpOnVdd := false } }
def tripPass : PassReading :=
  { closedPass with
    loop := closedPass.loop.set 3 { ohms := none, hold := .low }
    switch := closedPass.switch.set 1 { above := false, current := 15100 }
    envA := (Vector.replicate 3 false).set 0 true }
theorem witness_FrisketTrips : fieldOf (loopProgram.get 0) 28 4 = 1 ∧ bitOf (loopProgram.get 0) 23 = false ∧
    bitOf (loopProgram.get 0) 27 = true ∧ fieldOf (loopProgram.get 1) 28 4 = 3 ∧ bitOf (loopProgram.get 1) 27 = true ∧
    fieldOf trippedLoop.fk.lmode 6 2 = 1 ∧ loopDiffers (tripPass.loop.get 3) (some true) = true ∧
    (trippedLoop.fk.src.get 3).armed = true ∧ fieldOf (caseProgram.get 0) 28 4 = 5 ∧ bitOf (caseProgram.get 0) 26 = true ∧
    bitOf trippedCase.fk.caseen 1 = true ∧ fieldOf (caseProgram.get 0) 8 8 < (switchCode (tripPass.switch.get 1)).toNat ∧
    trippedEnv.pwr.phase = .lockup ∧ trippedEnv.fk.next.getD trippedEnv.fk.active = defaultProgram ∧
    tripPass.envA.get 0 = true ∧ responseOf zeroizing.fk 3 = 2 ∧ zeroizing.key.clear = false := by decide +kernel
/-- A trip of loop 0 at its first and at its last evaluation. -/
def tripAt (n : Nat) : Trip :=
  { evals := n, both := false, onlyA := true, onlyB := false, firstA := true, firstB := false, inLockup := false, resp := 1
    code := 0, time := 0, frac := 0, injected := false, erased := none }
def tripState (n : Nat) : State :=
  { runState with fk := { runState.fk with src := runState.fk.src.set 0 { armed := false, quiet := 7, trip := some (tripAt n) } } }
theorem witness_FrisketTrips_settled : sysLive (tripState 6) = true ∧ ((tripState 6).fk.src.get 0).trip = some (tripAt 6) ∧
    (tripAt 6).evals < 7 ∧ (tripAt 7).evals = 7 ∧ (tripAt 7).injected = false ∧ nextPosition (tripState 7) < 4030 ∧
    (tripState 7).imp.queue.length < 28 ∧ ((tripState 7).fk.src.get 0).armed = false ∧
    7 ≤ ((tripState 7).fk.src.get 0).quiet := by decide +kernel
/-- The levels at the input pins, and pins without VDDIO, in reset, in the power-fail sequence and in LOCKUP. -/
theorem witness_OutputPins : busLive State.reset = false ∧ busLive runState = true ∧ State.reset.pwr.phase = .reset ∧
    State.reset.pwr.vddio = true ∧ (inPhase .powerFail).pwr.phase = .powerFail ∧ (inPhase .lockup).pwr.phase = .lockup ∧
    { runState with pwr := { runState.pwr with vddio := false } }.pwr.vddio = false ∧
    ((generating 8).fe.ch.get 0).drv = true ∧ (generating 8).fe.gen = true ∧ 8 ≤ (generating 8).fe.phase ∧
    runState.port.ir.toNat = 1 ∧ { runState with port := { Port.reset with ir := 2 } }.port.ir.toNat = 2 ∧
    { runState with port := { Port.reset with ir := 0, isOpen := true } }.port.isOpen = true := by decide +kernel
theorem witness_FrisketRegisters : busLive mrState = true ∧ fkctlChange (fkctlWord runState) runState = false ∧
    fkctlChange (fkctlWord mrState ||| 0x10) mrState = false ∧ isClosing (closingState .waiting) = true ∧
    applyCheck mrState.fk.lmode mrState.fk.caseen mrState.fk.staging = 0 ∧ mrState.fk.staging = mrState.fk.active ∧
    applyCheck 0 0 (Vector.replicate 32 0) ≠ 0 ∧ applyCheck 0 0 (defaultProgram.set 0 0x58009633) = 0 ∧
    defaultProgram.set 0 0x58009633 ≠ mrState.fk.active ∧ legalRoom 0 (inPhase .makeready) = true ∧
    (inPhase .makeready).sl.incr = .none ∧ fkrespBad 0x0C00 = true ∧ fkrespBad 0x8000 = false ∧
    legalRoom 0 mrState = true := by decide +kernel

/-- Staged words of a slot, with the data phase closed; a KEYST command that is carried out. -/
def stagedKey (slot : BitVec 3) (n : Nat) : State :=
  { mrState with key := { Keys.reset with stageSlot := slot, stage := List.replicate n 1 } }
def commanded (slot : BitVec 3) (ws : Option (List Word)) : State :=
  { mrState with key := { Keys.reset with op := some (slot, ws) } }
theorem witness_KeyCommands : { mrState with key := { Keys.reset with dph := true } }.key.dph = true ∧
    mrState.key.dph = false ∧ fieldOf (0x1942 : Word) 4 8 ≠ 0x96 ∧ 4 ≤ fieldOf (0x1964 : Word) 0 4 ∧
    fieldOf (0x1962 : Word) 4 8 = 0x96 ∧ fieldOf (0x1962 : Word) 0 4 < 3 ∧ fieldOf (0x1963 : Word) 0 4 = 3 ∧
    inMakeready runState = false ∧ isClosing (closingState .waiting) = true ∧ (commanded 1 none).key.op.isSome = true ∧
    legalRoom 1 mrState = true ∧ (commanded 1 none).sl.incr = .done ∧ (commanded 0 (some [])).pwr.heldReset = none ∧
    { commanded 2 none with sl := Seal.reset }.sl.incr ≠ .done ∧
    { mrState with key := { Keys.reset with rph := true, readPos := 15 } }.key.rph = true ∧
    nextPosition { mrState with key := { Keys.reset with check := [some 5, none] } } + 2 < 4029 ∧
    placesFree 2 { mrState with key := { Keys.reset with check := [some 5, none] } } = true ∧
    (commanded 1 none).key.op = some (1, none) := by
  decide +kernel
theorem witness_KeyCommands_commit : (stagedKey 2 15).key.stage.length < slotWords 2 ∧
    (stagedKey 2 16).key.stageSlot.toNat = 2 ∧ slotWords 2 ≤ (stagedKey 2 16).key.stage.length ∧
    (∃ x ∈ (stagedKey 2 16).key.stage, x ≠ 0) ∧ (stagedKey 2 16).key.clear = false := by
  refine ⟨by decide, by decide, by decide, ⟨1, by decide, by decide⟩, by decide⟩
theorem witness_KeyCommands_room :
    legalRoom 1 { inPhase .makeready with imp := { Imprint.reset with next := 4029 } } = false := by decide +kernel

/-- RUN with the log full. -/
def fullLog : State := { runState with imp := { Imprint.reset with next := 4096 } }
theorem witness_ZeroizeAndComposingPort : busLive runState = true ∧ runState.key.clear = false ∧
    runState.key.dph = false ∧ fieldOf (0x5960 : Word) 4 8 = 0x96 ∧ fieldOf (0x5960 : Word) 0 4 < 4 ∧
    runState.port.isOpen = false ∧ runState.port.pend = false ∧ isGated 0x1F = true ∧ isGated 0 = true ∧
    isGated 0x0F = false ∧ runState.imp.queue.length < 27 ∧ 4096 ≤ fullLog.imp.next ∧
    portLive State.reset = true ∧ { runState with port := { Port.reset with pend := true } }.port.pend = true ∧
    { runState with port := { Port.reset with isOpen := true } }.port.isOpen = true := by decide +kernel
/-- A transaction is being signed. -/
def txnBusy : State := { txnState with sh := { txnState.sh with busy := true } }
/-- The log at its last position; 27 entries queued; reset; an opening whose code 38h has committed. -/
def lastPosition : State := { runState with imp := { Imprint.reset with next := 4095 } }
def logged : State := { runState with port := { Port.reset with pend := true, logged := true } }
theorem witness_ZeroizeAndComposingPort_room : nextPosition lastPosition = 4095 ∧ nextPosition runState < 4095 ∧
    nextPosition fullLog = 4096 ∧ State.reset.bkp.buffer.length ≤ 13 ∧ State.reset.pwr.vddio = true ∧
    State.reset.key.clear = false ∧ State.reset.port.isOpen = false ∧ State.reset.port.pend = false ∧
    logged.port.pend = true ∧ logged.port.logged = true ∧ txnBusy.sh.busy = true := by decide +kernel
theorem witness_ZeroizeAndComposingPort_queue :
    ({ runState with imp := { Imprint.reset with queue := List.replicate 27 (nowEntry 0x40 0 runState) } }).imp.queue.length = 27 ∧
    nextPosition { runState with imp := { Imprint.reset with queue := List.replicate 27 (nowEntry 0x40 0 runState) } } < 4096 := by
  decide +kernel

/-! ## Witnesses: nonvolatile memory and the clock -/

/-- The page buffer holds words of a page. -/
def loaded (p : BitVec 11) (s : State) : State := { s with nv := { Nv.reset with bufPage := some p, bufWords := [(31, 1)] } }
theorem witness_NvCommands : busLive runState = true ∧ runState.nv.dph = false ∧ runState.nv.bufPage = none ∧
    (loaded 768 runState).nv.bufPage = some 768 ∧ inL 512 = true ∧ inL 767 = true ∧ inMakeready (loaded 512 runState) = false ∧
    isClosing (closingState .waiting) = true ∧ isProtected 3 511 = true ∧ isProtected 0 511 = false ∧
    legalRoom 1 (loaded 767 mrState) = true ∧ (loaded 767 mrState).nv.host = none ∧ (loaded 767 mrState).nv.legal = [] ∧
    commandStore (loaded 767 mrState) = false ∧ nvIdle runState = true ∧ nvIdle busyState = false ∧
    (63 : Fin 64).val = fieldOf (0x0FC0 : Word) 6 6 ∧ runState.nv.ring.get 63 = none := by decide +kernel
theorem witness_NvCommands_failing : failing.mark = .pfail ∧ failing.pwr.phase = .powerFail ∧ failing.nv.dph = false ∧
    { mrState with nv := { Nv.reset with host := some (.page 0 []) } }.nv.host ≠ none ∧
    commandStore (storeState true .run) = true ∧
    legalRoom 1 { mrState with imp := { Imprint.reset with next := 4030 } } = false := by
  decide +kernel

/-- The fourth word of a ring write; a ring with a value; a read phase at its last word. -/
def ringWords (r : BitVec 6) : State :=
  { runState with nv := { Nv.reset with dph := true, pring := r, slugWords := [1, 2, 3] } }
def ringed : State := { runState with nv := { Nv.reset with
  ring := Nv.reset.ring.set 2 (some { slot := 15, seq := 0xFFFFFFFF, value := 1 }), readWords := some [9] } }
theorem witness_NvCommands_slug : (ringWords 2).nv.dph = true ∧ (ringWords 2).nv.slugWords = [1, 2, 3] ∧
    (1 : Fin 64).val = (ringWords 1).nv.pring.toNat ∧ nextSlot 2 (ringWords 2) ≠ none ∧ nextSlot 2 ringed = none ∧
    ringed.nv.ring.get 2 = some { slot := 15, seq := 0xFFFFFFFF, value := 1 } ∧ ringed.nv.readWords = some (9 :: []) ∧
    (ringWords 2).nv.host = none ∧ (ringWords 2).nv.legal = [] := by decide

/-- An operation in progress at its end. -/
def running (op : ArrayOp) (s : State) : State := { s with nv := { Nv.reset with running := some op } }
def entryState (e : Entry) : State :=
  { running (.imprint 0 1) mrState with
    imp := { Imprint.reset with queue := [e] }, sl := { Seal.reset with incr := .logging 1 } }
def entry23 : Entry := { code := 0x23, time := 0, frac := 0, data := 1 }
theorem witness_ArrayOperationEnds : sysLive runState = true ∧ runState.pwr.heldReset = none ∧
    (running (.hostPage 511 [(31, 5)]) runState).nv.running = some (.hostPage 511 [(31, 5)]) ∧
    (∀ x ∈ [((31 : Nat), (5 : Word))], x.1 < 32) ∧
    nextPosition (running (.hostPage 512 [(0, 5)]) mrState) < 4030 ∧
    nextSlot 2 (running (.hostRing 2 7) runState) = some (0, 1) ∧ (entryState entry23).imp.queue = entry23 :: [] ∧
    (entryState entry23).imp.next < 4095 ∧ (∀ i < 16, nvByte (entryState entry23) (0x10000 + i) = 0xFF) ∧
    (entryState entry23).sl.incr = .logging 1 ∧
    nextSlot 0 (running (.sealRing 0 1 .increment) mrState) = some (0, 1) ∧
    { mrState with sl := { Seal.reset with incr := .ringing 1 } }.sl.incr = .ringing 1 ∧ mrState.sl.deferred = [] ∧
    runState.pwr.phase = .run ∧ mrState.pwr.phase ≠ .run ∧ pageState 0 runState = 0 ∧
    2047 ≤ ({ runState with bkp := { Bkp.reset with refreshPage := 2047 } }).bkp.refreshPage ∧
    pageState 0 { runState with nv := { Nv.reset with flaws := [(31, .two)] } } = 2 := by decide +kernel
theorem witness_ArrayOperationEnds_good : MemoryGood (running (.hostPage 511 [(31, 5)]) runState) ∧
    MemoryGood (entryState entry23) ∧ MemoryGood (running (.sealRing 0 1 .increment) mrState) :=
  ⟨good_of_empty _ rfl rfl rfl rfl rfl, good_of_empty _ rfl rfl rfl rfl rfl, good_of_empty _ rfl rfl rfl rfl rfl⟩
/-- A page of a legal store, two entries in one page, code 11h of a closing, a marker, a closing's record, a refresh. -/
def twoEntries : State :=
  { running (.imprint 0 2) mrState with imp := { Imprint.reset with next := 4094, queue := [entry23, entry23] } }
def closingEntry : Entry := { code := 0x11, time := 0, frac := 0, data := 1 }
theorem witness_ArrayOperationEnds_kinds : (List.replicate 64 (0 : Byte)).length = 64 ∧
    (running (.legalPage 767 (List.replicate 64 0)) mrState).nv.running = some (.legalPage 767 (List.replicate 64 0)) ∧
    ((entryState entry23).imp.queue.drop 0).take 1 = [entry23] ∧ 3969 + 1 < 4096 ∧
    { closingState .logging with imp := { Imprint.reset with queue := [closingEntry] } }.sl.closing = .logging ∧
    (twoEntries.imp.queue.drop 0).take 2 = [entry23, entry23] ∧
    (running (.marker 0x51) { runState with imp := { Imprint.reset with next := 4031 } }).imp.next = 4031 ∧
    (running (.marker 0x50) { runState with imp := { Imprint.reset with next := 3968 } }).imp.next = 3968 ∧
    nextSlot 1 (running (.sealRing 1 0 .closeSession) mrState) = some (0, 1) ∧
    (running (.refresh 1023) runState).nv.running = some (.refresh 1023) ∧
    waitingReset.nv.running = some (.hostPage 0 []) ∧
    pageState 0 { runState with nv := { Nv.reset with flaws := [(31, .one 0)] } } = 1 := by
  decide +kernel

/-- A transaction that is being signed. -/
def signing : State := { txnState with sh := { txnState.sh with busy := true, base := 7 } }
theorem witness_Transactions : busLive txnState = true ∧ bitOf (0x0003 : Word) 15 = false ∧ bitOf (0x0003 : Word) 14 = false ∧
    bitOf (0x0003 : Word) 13 = false ∧ runState.sh.staging = none ∧ fieldOf (0x0007 : Word) 0 3 = 7 ∧
    txnState.sh.staging ≠ none ∧ txnState.sh.busy = false ∧ signing.sh.busy = true ∧ bitOf keyedMr.key.pres 0 = true ∧
    bitOf txnState.key.pres 0 = false ∧ bitOf (0xC000 : Word) 15 = true ∧ bitOf (0xC000 : Word) 14 = true := by decide +kernel
theorem witness_Transactions_due : digestDue (closingState .waiting) = true ∧ (closingState .waiting).sh.started = false ∧
    digestDue signing = false ∧ { signing with sh := { signing.sh with started := true } }.sh.started = true := by decide +kernel
theorem witness_Transactions_good : MemoryGood signing ∧ signing.sh.staging = some (List.replicate 512 0) ∧
    (List.replicate 512 (0 : Byte)).length = 512 :=
  ⟨good_of_empty _ rfl rfl rfl rfl rfl, rfl, List.length_replicate⟩

/-- A check of the log in progress, of no position and of one that holds no entry. -/
def checking (n : Nat) : State := { runState with imp := { Imprint.reset with verify := some n } }
/-- A lockout is active. -/
def lockedState : State := { runState with nv := { Nv.reset with
  ring := Nv.reset.ring.set 1 (some { slot := 0, seq := 1, value := 5 }) } }
theorem witness_ImprintCheckAndClock : busLive runState = true ∧ (checking 0).imp.verify = some 0 ∧
    (∀ i < 0, entryBad (checking 0) i = false) ∧ entryBad (checking 1) 0 = true ∧ runState.pwr.phase ≠ .unpowered ∧
    nextPosition runState < 4030 ∧ runState.imp.queue.length < 28 ∧
    lockoutHolds (latestRecord runState) runState.bkp.sec runState = false ∧
    lockoutHolds (latestRecord lockedState) lockedState.bkp.sec lockedState = true := by decide +kernel
theorem witness_ImprintCheckAndClock_tick : runState.pending = [] ∧ setsRtc runState.mark = false ∧
    setsRtc .rtcSet = true ∧ setsRtc .rtcSetInjected = true ∧ { runState with mark := .rtcSet }.mark = .rtcSet ∧ runState.bkp.frac ≠ 0xFF ∧
    { runState with bkp := { Bkp.reset with frac := 0xFF } }.bkp.frac = 0xFF ∧ (working 1).pending = [] ∧
    (working 1).fm.load.map (·.ch) = some 0 ∧ (inPhase .lockup).pwr.phase ≠ .unpowered ∧
    sysLive (inPhase .lockup) = false := by decide +kernel

/-! ## Witnesses: the remaining clauses -/

def stickyState (id : Nat) : State := { runState with ev := { Events.reset with sticky := setBit 0 id true } }
def actState : State := { runState with ev := { Events.reset with act := true } }
/-- A reset is held, and the operation behind which it waited has ended. -/
def endedReset : State := { waitingReset with nv := Nv.reset }
theorem witness_EndOfCommand_clauses : isSticky 1023 (stickyState 1023) = true ∧ (settled actState).ev.act = true ∧
    (settled liveState).sys.liveOn = true ∧ mayStart busyState = false ∧ isSticky 0 (stickyState 0) = true ∧
    waitingReset.pwr.heldReset = some 4 ∧ resetWaits waitingReset = true ∧ resetWaits endedReset = false ∧
    endedReset.pwr.heldReset = some 4 := by
  decide +kernel
/-- What the controller starts next: a ring, a marker, entries, nothing for want of a position, the host, a store, refresh. -/
def ready (s : State) : Bool := mayStart s && s.imp.heldSteps.isEmpty && !s.ev.act
theorem ready_spec {s : State} (h : ready s = true) : mayStart s = true ∧ s = admitHeld (injectionCheck s) := by
  simp only [ready, Bool.and_eq_true, List.isEmpty_iff, Bool.not_eq_true'] at h
  refine ⟨h.1.1, ?_⟩
  have hi : injectionCheck s = s := by simp [injectionCheck, h.2]
  have hh : ∀ (m : Imprint), m.heldSteps = [] →
      m = { m with
        queue := m.queue ++ m.heldSteps.take (queuePlaces - m.queue.length),
        heldSteps := m.heldSteps.drop (queuePlaces - m.queue.length) } := by
    rintro ⟨⟩ h; simp_all
  rw [hi]
  exact congrArg (fun m => { s with imp := m }) (hh s.imp h.1.2)
def queued (next : Nat) (es : List Entry) : State := { runState with imp := { Imprint.reset with next := next, queue := es } }
def hosting (h : HostOp) (s : State) : State := { s with nv := { Nv.reset with host := some h } }
theorem witness_EndOfCommand_next :
    ready { runState with nv := { Nv.reset with sealQueue := [(1, 0, .count)] } } = true ∧ ready (queued 3968 []) = true ∧
    markerDue (queued 3968 []) = some 0x50 ∧ markerDue (queued 4031 []) = some 0x51 ∧
    ready (queued 0 [entry23]) = true ∧ markerDue (queued 0 [entry23]) = none ∧
    fate (sessionOpen (queued 0 [entry23])) 0x23 0 = .takes ∧ ready (queued 4096 [entry23]) = true ∧
    fate (sessionOpen (queued 4096 [entry23])) 0x23 4096 = .none ∧ ready (hosting (.page 512 []) runState) = true ∧
    inL 512 = true ∧ inMakeready runState = false ∧ ready (hosting (.page 511 []) runState) = true ∧
    isProtected 0 511 = false ∧ ready (hosting (.page 767 []) mrState) = true ∧ changeFree mrState = true ∧
    changeFree (inPhase .makeready) = false ∧ ready (hosting (.ring 63 1) runState) = true ∧
    ready (storing (.forme 0 false 0 (presetImage 0)) [(520, [])] mrState) = true ∧
    (nextLegalPage (storing (.forme 0 false 0 (presetImage 0)) [(520, [])] mrState).nv.legal).isSome = true ∧
    ready { runState with nv := { Nv.reset with refresh := some { weak := true } } } = true ∧ ready runState = true := by
  decide +kernel
theorem witness_EndOfCommand_rings : RingsUsable actState ∧ RingsUsable (stickyState 1023) ∧ RingsUsable busyState := by
  unfold RingsUsable; decide +kernel
def wrap2State : State := { runState with ev := { Events.reset with count := Events.reset.count.set 2 (BitVec.allOnes 48) } }
theorem witness_EventOccurs_wraps : (5 : Fin 64).val = 0x50 / 16 ∧ (2 : Fin 64).val = 0x2F / 16 ∧
    wrap2State.ev.count.get 2 = BitVec.allOnes 48 := by decide +kernel

/-- The pre-increment of an attempt has committed; a zeroize has spoilt it. -/
def firstRecord : SealRecord := { fails := 0, isOpen := false, voids := false, lkstart := 0 }
theorem witness_SealSequences_counted :
    (openingState (.counted firstRecord false true)).sl.opening = .counted firstRecord false true := by decide
/-- CH_0 waits for E, and the running generator has just reversed to positive. -/
def atReversal : State :=
  modFe 0 (fun c => { c with joinable := true })
    { waitingState with fe := { waitingState.fe with gen := true, phase := 0, pol := true } }
theorem witness_ExcitationSteps_running : isE 0 atReversal = true ∧ atReversal.fe.gen = true ∧
    isDc atReversal = false := by decide +kernel

/-- A raised result, above the threshold; a block in progress, and above before a result. -/
def blockState : State := { toneForme with tone := { Tone.reset with block := some toneBlock, busy := true } }
def aboveState : State := { dueState with tone := { dueState.tone with above := true, useThr := 0xFFFFFFFF } }
def belowState : State := { dueState with tone := { dueState.tone with above := false, useThr := 0 } }
theorem witness_ToneDetector_clauses : blockState.tone.block ≠ none ∧ blockState.tone.due = none ∧
    toneRefused blockState = false ∧ toneBlock.skipped = true ∧ belowState.tone.above = false ∧
    belowState.tone.thenBit = true ∧ belowState.tone.useThr = 0 ∧ aboveState.tone.above = true := by decide +kernel

/-- Kern frozen at the end of a solve. -/
def frozenState : State := { epochState with kern := { epochState.kern with frz := true } }
theorem witness_KernSteps_frozen : frozenState.kern.frz = true ∧ frozenState.kern.solves = 0 :: [2] ∧
    frozenState.kern.solveLeft = 0 := by decide

/-- A HUB with a link key in use that has changed; a HUB to restart; a NODE the same, with RNG and TRIM clear. -/
def rekeyed (s : State) : State :=
  { s with gl := { s.gl with keyed := true, key := 0 }, key := { s.key with link := 1, pres := 2 } }
theorem witness_SuperframeOrigins_keys : (rekeyed hubState).gl.keyed = true ∧
    (rekeyed hubState).key.link ≠ (rekeyed hubState).gl.key ∧ (rekeyed (nodeState .member)).gl.keyed = true ∧
    { hubState with gl := { hubState.gl with restart := true } }.gl.restart = true ∧
    { restarted with gl := { restarted.gl with rng := false, trim := false } }.gl.rng = false := by decide

theorem witness_UplinksAndMembership_clauses :
    crcGood { header := dataFrame.header, body := dataFrame.body, mac := dataFrame.mac, crc := dataFrame.crc + 1 } = false ∧
    2048 < (roundAway 4098 2).toNat ∧ (modNode 15 (fun n => { n with rtt := some 4098, sentDly := 2048 }) askedHub).gl.state = .run := by
  refine ⟨by simp [crcGood, dataFrame, makeFrame], by decide, by decide⟩
theorem witness_RemoteAccess_clauses : (jobHub true (some 4)).gl.job = some { bcast := true, localX := true, tgt := 2, nacc := 8, sent := some 4 } ∧
    (heldState true 0x003F).gl.held = some { pairs := [(0x003F, 7)], sfn := 4, unicast := true, refused := true } ∧
    (frameFits beacon = false ∨ frameType beacon < 4) := by decide +kernel

/-- FKCTL in MAKEREADY with a staging program that fails a check, and with one that differs. -/
def stagedProgram (p : Vector W32 32) : State :=
  { inPhase .makeready with fk := { (inPhase .makeready).fk with staging := p } }
theorem witness_FrisketRegisters_programs :
    applyCheck (stagedProgram (Vector.replicate 32 0)).fk.lmode (stagedProgram (Vector.replicate 32 0)).fk.caseen
      (stagedProgram (Vector.replicate 32 0)).fk.staging ≠ 0 ∧
    (stagedProgram (defaultProgram.set 0 0x58009633)).fk.staging ≠ (stagedProgram (defaultProgram.set 0 0x58009633)).fk.active ∧
    applyCheck (stagedProgram (defaultProgram.set 0 0x58009633)).fk.lmode (stagedProgram (defaultProgram.set 0 0x58009633)).fk.caseen
      (stagedProgram (defaultProgram.set 0 0x58009633)).fk.staging = 0 := by decide +kernel
theorem witness_FrisketPasses_responses : (inPhase .lockup).pwr.phase = .lockup ∧
    ((inPhase .lockup).fk.src.get 6).armed = true ∧
    responseOf { runState with fk := { runState.fk with resp1 := 0 } }.fk 10 ≠ 2 := by decide +kernel

theorem witness_FormeLoads_raw : bitOf (0x4010 : Word) 14 = true ∧ bitOf (0x4010 : Word) 15 = false := by decide
theorem witness_WindowRefusals_arrays : (atWindow 11 0 runState).bus.array = 11 ∧ (atWindow 9 0 runState).bus.array = 9 ∧
    neverWritable (atWindow 13 3 runState) = true ∧ isRowOf (.neverWritableArrayWrite 1) 1 (atWindow 13 3 runState) ∧
    isRowOf (.formeEditWrite 1) 1 (atWindow 3 0 (legalCh runState)) ∧
    windowRefusal (atWindow 3 0 (legalCh runState)) 0 = some 0x24 := by unfold isRowOf; decide +kernel
theorem witness_StartAndStopRequests_startup : (inPhase .startup).pwr.phase = .startup ∧ busLive (inPhase .startup) = true ∧
    sysLive (inPhase .startup) = true := by decide
theorem witness_KeyCommands_slots : fieldOf (0x1961 : Word) 0 4 = 1 ∧ fieldOf (0x3960 : Word) 0 4 = 0 := by decide

/-! ## Witnesses: the clauses of held steps, injections, marks and the TAP -/

/-- 32 entries wait for their commits. -/
def crowded (s : State) : State := { s with imp := { s.imp with queue := List.replicate 32 entry23 } }
theorem placesFree_crowded (s : State) (h : s.imp.heldSteps = []) (n : Nat) : placesFree (n + 1) (crowded s) = false := by
  have e : (List.replicate 32 entry23).length = 32 := List.length_replicate
  simp only [placesFree, crowded, h, e, queuePlaces, List.length_nil, decide_eq_false_iff_not]
  omega
theorem witness_placesFree : placesFree (denyEntries true) (openingState (.checking false false true)) = true ∧
    placesFree 1 (openingState (.opened true)) = true ∧ placesFree 1 (closingState .waiting) = true ∧
    placesFree 1 loadedForme = true ∧ placesFree 1 loadedPreset = true ∧ placesFree 1 casedState = true ∧
    placesFree 1 calDone = true := by decide +kernel
theorem witness_placesFree_held : placesFree (denyEntries true) (crowded (openingState (.checking false false true))) = false ∧
    placesFree (denyEntries false) (crowded (openingState (.checking false false false))) = false ∧
    placesFree 1 (crowded (openingState (.opened true))) = false ∧ placesFree 1 (crowded (closingState .waiting)) = false ∧
    placesFree 2 (crowded { mrState with key := { Keys.reset with check := [some 5, none] } }) = false :=
  ⟨placesFree_crowded _ rfl 1, placesFree_crowded _ rfl 0, placesFree_crowded _ rfl 0, placesFree_crowded _ rfl 0,
    placesFree_crowded _ rfl 1⟩

/-- A downlink that waits in the st of PFAIL. -/
def failingNode : State := { failing with gl := (heldState false 0x0033).gl }
theorem witness_CommandsIgnoredWhileHeld_downlink : isSysCommand .downlinkExecute = true ∧ sysLive failingNode = false ∧
    failingNode.mark = .pfail ∧ failingNode.gl.held.isSome = true := by decide +kernel
theorem witness_StartupSequence_code : ({ code := 0x33, time := 5, frac := 6, data := 7 } : Entry).code ≠ 0x11 ∧
    digestedState.bkp.buffer = [] ∧ (buffered 0x33 (cutSession 4030)).bkp.buffer ≠ [] := by decide +kernel
/-- The crystal has stopped. -/
def halted (s : State) : State := { s with sys := { s.sys with xrun := false } }
theorem witness_HeartbeatMailbox_halted : sysLive (halted mailState) = true ∧ (halted mailState).sys.xrun = false ∧
    (halted mailState).bkp.mailbox = { event := 0x2E0, time := 0, frac := 0 } :: [] := by decide +kernel
theorem witness_SampleAndDelayReads_halted : busLive (halted (fifoState 0 [{ value := 1, tag := 2 }])) = true ∧
    (halted (fifoState 0 [{ value := 1, tag := 2 }])).fm.fifo = { value := 1, tag := 2 } :: [] ∧
    (halted (fifoState 0 [{ value := 1, tag := 2 }])).fm.sink = false ∧
    (halted (fifoState 0 [{ value := 1, tag := 2 }])).sys.xrun = false ∧
    (fifoState 0 [{ value := 1, tag := 2 }]).sys.xrun = true := by decide

/-- An injection of a detector in progress, at a word of NVARR or in a state of its own. -/
def forcing (id : BitVec 10) (s : State) : State := { s with ev := { Events.reset with act := true, evid := id } }
/-- A forced evaluation finds the condition where the path has not failed, which is a free value (log entry 49). -/
theorem injected_forcing (id : BitVec 10) (s : State) (h : Config.pathFailed id.toNat = false) :
    injected id.toNat (forcing id s) = true := by
  have hf : forced id.toNat (forcing id s) = true := by simp [forced, forcing, Events.reset]
  rw [injected, h, hf]; rfl
theorem witness_injections (h : ∀ i, Config.pathFailed i = false) :
    injected 0x368 (forcing 0x368 (atWindow 10 0 runState)) = true ∧
    injected 0x369 (forcing 0x369 (atWindow 10 0 runState)) = true ∧
    injected 0xD1 (forcing 0xD1 (pathState 0 1 [])) = true ∧ injected 0x1A1 (forcing 0x1A1 (hearing .lock 4)) = true ∧
    injected 0x2A5 (forcing 0x2A5 (hearing .lock 4)) = true ∧ injected 0x191 (forcing 0x191 askedHub) = true ∧
    injected 0x2A8 (forcing 0x2A8 (nodeState .member)) = true :=
  ⟨injected_forcing 0x368 _ (h _), injected_forcing 0x369 _ (h _), injected_forcing 0xD1 _ (h _),
    injected_forcing 0x1A1 _ (h _), injected_forcing 0x2A5 _ (h _), injected_forcing 0x191 _ (h _),
    injected_forcing 0x2A8 _ (h _)⟩
theorem witness_injections_none : injected 0xD1 (pathState 0 1 []) = false ∧ injected 0x368 runState = false ∧
    injected 0x369 runState = false ∧ injected 0x2A8 (nodeState .member) = false ∧ (hearing .lock 4).ev.act = false ∧
    askedHub.ev.act = false ∧ (nodeState .lock).ev.act = false ∧ dueState.ev.act = false ∧ (motionState 6).ev.act = false := by
  decide +kernel
theorem witness_Injection_crystal : (6 : Nat) = fieldOf (0x006 : Word) 0 10 ∧ isDetector 6 = false ∧
    atRest 0 (clocked true) = false ∧ atRest 1 (clocked true) = true ∧ injectAllowed 6 (clocked true) = true ∧
    (0x2E0 : Nat) ≠ 6 := by decide +kernel
theorem witness_EngineTurns_off : isNode (nodeState .off) = true ∧ (nodeState .off).gl.trimNow = true ∧
    (nodeState .off).gl.state = .off ∧ (nodeState .join).gl.state ≠ .off ∧ (nodeState .join).gl.state ≠ .member := by decide

/-- Beacons of another session, of SN 9. -/
def nextSession : Frame := makeFrame 0 9 0 none (headerWord 1 0 11) [0x0100, 7, 0, 0, 0, 0, 0, 9, 0, 0, 0x20]
theorem witness_NodeBeacons_session : frameFits nextSession = true ∧ frameType nextSession = 1 ∧
    bodyPair nextSession 7 ≠ (hearing .member 0xFFFFFFFF).gl.sn ∧
    (hearing .member 0xFFFFFFFF).gl.bSfn = 0xFFFFFFFF ∧ (hearing .member 0xFFFFFFFF).gl.state = .member ∧
    (hearing .member 5).gl.bSfn ≠ 0xFFFFFFFF ∧ beacon.body.length + 4 ≤ 64 := by decide +kernel
/-- A downlink that sets the clock, and one that injects, injection armed. -/
def armedNode : State :=
  { heldState false 0x0012 with
    ev := armedState.ev, gl := { (heldState false 0x0012).gl with
      held := some { pairs := [(0x0012, 0x0350)], sfn := 4, unicast := false, refused := false } } }
theorem witness_RemoteAccess_marks : fieldOf (0x003A : Word) 0 6 = 0x3A ∧ bitOf (0x003A : Word) 15 = false ∧
    setsRtc (downlinkMark (heldState false 0x003A)) = true ∧ fieldOf (0x0012 : Word) 0 6 = 0x12 ∧
    injectAllowed (fieldOf (0x0350 : Word) 0 10) armedNode = true ∧ isDetector (fieldOf (0x0350 : Word) 0 10) = false ∧
    injects (downlinkMark armedNode) = true ∧ downlinkMark (heldState false 0x003F) = .none := by decide +kernel

/-- The TAP controller in a state, with an instruction in its register, in a session or not. -/
def tapState (t : TapState) (ir : Byte) (isOpen : Bool) : State :=
  { runState with port := { Port.reset with tap := t, ir := ir, isOpen := isOpen } }
/-- The levels at the pins, all low but D[0] and VDDIO's pull-ups. -/
def quietPins : PinLevels :=
  { d := 1, a := 0, cs := false, rd := false, wr := false, rst := false, busmode := false, pfi := false, sync := false
    glrx := false, role := false, rdy := false, gltx := false, glde := false }
def cycle (tms tdi : Bool) : TckCycle := { tms := tms, tdi := tdi, pins := quietPins }
theorem witness_OutputPins_extest : extest (tapState .runTestIdle 0 true) = true ∧ extest (tapState .runTestIdle 0 false) = false ∧
    extest (tapState .runTestIdle 1 true) = false ∧ (tapState .runTestIdle 0 true).port.isOpen = true := by decide +kernel
/-- SAMPLE captures D[0], shifts it out, and loads the PRELOAD stage at Update-DR; INTEST is bypassed outside a session. -/
theorem witness_OutputPins_tap :
    bitOf (tapCycle (cycle false false) (tapState .captureDr 2 false)).port.cells 0 = true ∧
    (tapCycle (cycle false false) (tapState .captureDr 1 false)).port.idShift = 0x24816C57 ∧
    (tapCycle (cycle false true) (tapState .shiftDr 3 false)).port.bypass = true ∧
    bitOf (tapCycle (cycle false true) (tapState .shiftDr 2 false)).port.cells 59 = true ∧
    (tapState .exit1Dr 2 false).port.tap = .exit1Dr ∧ (tapState .exit2Dr 0 true).port.isOpen = true ∧
    (tapCycle (cycle true false) (tapState .captureIr 1 false)).port.irShift = 1 ∧
    (tapState .shiftIr 1 false).port.tap = .shiftIr ∧
    (tapCycle (cycle true false) (tapState .exit1Ir 2 false)).port.ir = 1 := by decide +kernel
theorem witness_ZeroizeAndComposingPort_ahead : isGated 0x01 = false ∧
    ((queued 0 [{ entry23 with code := 0x38 }]).imp.queue ++ (queued 0 [{ entry23 with code := 0x38 }]).imp.heldSteps).filter
      (fun e => decide (e.code = 0x38)) ≠ [] := by decide +kernel
theorem witness_NvCommands_vddio : failing.pwr.vddio = true := by decide

/-- The last position; code 38h of the opening in progress, alone and behind one of an earlier session. -/
def lastEntries : State :=
  { running (.imprint 0 2) mrState with imp := { Imprint.reset with next := 4094, queue := [entry23, entry23] } }
def portWrite (ahead : Nat) : State :=
  { running (.imprint 0 1) mrState with
    imp := { Imprint.reset with queue := [{ entry23 with code := 0x38 }] }
    port := { Port.reset with pend := true, ahead := ahead } }
theorem witness_ArrayOperationEnds_last : lastEntries.imp.next + 2 = 4096 ∧ (1 : Nat) ≤ 2 ∧
    (∀ i < 32, nvByte lastEntries (0x10000 + 16 * 4094 + i) = 0xFF) ∧
    ((portWrite 0).imp.queue.drop 0).take 1 = [{ entry23 with code := 0x38 }] ∧ (portWrite 0).port.pend = true ∧
    (portWrite 0).port.ahead = 0 ∧ (portWrite 1).port.ahead ≠ 0 ∧ (running (.imprint 0 1) mrState).port.pend = false := by
  decide +kernel

/-! ## Witnesses: registers -/

/-- MAKEREADY, the increment of the session not made yet. -/
def freshMr : State := inPhase .makeready
theorem witness_RegisterAccesses_sysctl : fieldOf (0xC380 : Word) 8 8 = 0xC3 ∧ bitOf (0xC380 : Word) 7 = true ∧
    fieldOf (0x0080 : Word) 8 8 ≠ 0xC3 ∧ bitOf (0xC318 : Word) 7 = false ∧ inMakeready runState = false ∧
    inMakeready mrState = true ∧ fieldOf (0xC330 : Word) 4 3 = mrState.sys.hbto.toNat ∧
    bitOf (0xC330 : Word) 3 = mrState.sys.wdrst ∧ fieldOf (0xC318 : Word) 4 3 ≠ mrState.sys.hbto.toNat ∧
    isClosing (closingState .waiting) = true ∧ inMakeready (closingState .waiting) = true ∧ legalRoom 0 mrState = true ∧
    mrState.sl.incr = .done ∧ isClosing mrState = false ∧ legalRoom 0 freshMr = true ∧ freshMr.sl.incr = .none ∧
    isClosing freshMr = false ∧ busLive freshMr = true := by decide +kernel
theorem witness_RegisterAccesses_kern : mrState.nv.bpl = false ∧
    { runState with nv := { Nv.reset with bpl := true } }.nv.bpl = true ∧ bitOf (0x8003 : Word) 15 = true ∧
    bitOf (0x00C0 : Word) 8 = false ∧ isLegal 0 runState = false ∧ isLegal 0 (legalCh runState) = true ∧
    bitOf (0x00C0 : Word) 12 ≠ bitOf (legalCh runState).kern.en 0 := by decide +kernel
theorem witness_ExcitationAndChannelFields_class : isLegal 0 (legalCh mrState) = true ∧
    chctlChange 0 0x3000 (legalCh mrState) ≠ 0 ∧ isLegal 0 mrState = false ∧ bitOf (0x2000 : Word) 13 = true ∧
    isClosing (legalCh (closingState .waiting)) = true ∧ inMakeready (legalCh (closingState .waiting)) = true ∧
    isLegal 0 (legalCh freshMr) = true ∧ isClosing (legalCh freshMr) = false ∧ legalRoom 0 (legalCh freshMr) = true ∧
    (legalCh freshMr).sl.incr = .none ∧ (legalCh mrState).sl.incr = .done ∧ legalRoom 0 (legalCh mrState) = true ∧
    formeComing 0 mrState = false ∧ bitOf (0x3000 : Word) 13 = isLegal 0 (legalCh mrState) := by decide +kernel
theorem witness_ExcitationAndChannelFields_closing : (∀ k : Chan, atRest k (closingState .waiting) = true) ∧
    inMakeready (closingState .waiting) = true ∧ excctlBad 0x2200 = false ∧ isClosing (closingState .waiting) = true := by
  decide +kernel
/-- LMODE with a new value in the word of PAPPLY: of a program whose loops differ from it or not. -/
theorem witness_FrisketRegisters_word : fkctlChange 0x0030 mrState = true ∧
    applyCheck (BitVec.ofNat 8 (fieldOf (0x0030 : Word) 8 8)) (BitVec.ofNat 2 (fieldOf (0x0030 : Word) 6 2)) mrState.fk.staging = 0 ∧
    fkctlChange 0x0030 (stagedProgram (defaultProgram.set 0 0x58009633)) = true ∧
    (stagedProgram (defaultProgram.set 0 0x58009633)).sl.incr = .none ∧
    applyCheck (BitVec.ofNat 8 (fieldOf (0x0030 : Word) 8 8)) (BitVec.ofNat 2 (fieldOf (0x0030 : Word) 6 2))
      (stagedProgram (Vector.replicate 32 0)).fk.staging ≠ 0 ∧
    legalRoom 0 (stagedProgram (Vector.replicate 32 0)) = true ∧ isClosing (stagedProgram (Vector.replicate 32 0)) = false := by
  decide +kernel
theorem witness_FrisketRegisters_responses : fkrespBad 0x0001 = false ∧ bitOf (0x0001 : Word) 15 = false ∧
    fieldOf (0x0001 : Word) 0 12 ≠ freshMr.fk.resp0.toNat ∧ fieldOf (0x8001 : Word) 0 10 ≠ freshMr.fk.resp1.toNat ∧
    fkrespBad 0x8001 = false ∧ freshMr.sl.incr = .none := by decide +kernel

/-! ## Witnesses: what does not check at the release -/

/-- CH_3 has an image without a header stored in slot 1, and a calibration set without points. -/
def badBody : List Byte := formeBytes (Vector.replicate 64 0) ++ leBytes 4 7
def badImage : State := written [(64 * formePage 3 1, badBody ++ leBytes 2 (crc16 badBody).toNat)]
theorem witness_RestoresAtRelease_badForme : storedForme 3 badImage = some (1, 7, formeBytes (Vector.replicate 64 0)) ∧
    loaderCheck true (imageOf (w32sOfBytes (formeBytes (Vector.replicate 64 0)))) ≠ none := by
  have h : badBody.length = 256 + 4 := by decide +kernel
  have h1 : storedSlot (64 * formePage 3 1) 256 badImage = some (7, formeBytes (Vector.replicate 64 0)) := by
    rw [badImage, storedSlot_written _ 256 _ h]; decide +kernel
  have h0 : storedSlot (64 * formePage 3 0) 256 badImage = none :=
    storedSlot_blank _ _ _ _ (by decide) (by rw [crc_blank.1]; decide)
  exact ⟨by rw [storedForme, h1, h0]; rfl, by decide +kernel⟩
def badCalBody : List Byte := bytesOfW32s (List.replicate 33 0) ++ leBytes 4 9
def badCal : State := written [(64 * calPage 3 1, badCalBody ++ leBytes 2 (crc16 badCalBody).toNat)]
theorem witness_RestoresAtRelease_badCal : storedCal 3 badCal = some (1, 9, bytesOfW32s (List.replicate 33 0)) ∧
    calCountBad (vecOf 33 0 (w32sOfBytes (bytesOfW32s (List.replicate 33 0)))) = true := by
  have h : badCalBody.length = 132 + 4 := by decide +kernel
  have h1 : storedSlot (64 * calPage 3 1) 132 badCal = some (9, bytesOfW32s (List.replicate 33 0)) := by
    rw [badCal, storedSlot_written _ 132 _ h]; decide +kernel
  have h0 : storedSlot (64 * calPage 3 0) 132 badCal = none :=
    storedSlot_blank _ _ _ _ (by decide) (by rw [crc_blank.2]; decide)
  exact ⟨by rw [storedCal, h1, h0]; rfl, by decide +kernel⟩

end Sys2Proof.Tests
end

section
/-! PROOFS. The heartbeat, LIVE, the event mailbox and the self checks of a millisecond (O21): what a detector and a parity
read do to the event unit, then a lemma for each command. -/

namespace Sys2Proof.Machine

/-! ## The two guards of a command -/

theorem when_of_true {c : Bool} (f : State → State) (s : State) (hc : c = true) : when c f s = f s := by
  rw [when, if_pos hc]

theorem onBus_of_busLive (f : State → State) (s : State) (hs : busLive s = true) : onBus f s = f (served s) := by
  rw [onBus, if_pos hs]; rfl

/-! ## One bit of a word -/

theorem bitOf_setBit_self {w : Nat} (v : BitVec w) (i : Nat) (b : Bool) (hi : i < w) : bitOf (setBit v i b) i = b := by
  cases b
  case false => simp [setBit, bitOf]
  case true => simp [bitOf_setBit_true, hi]

theorem bitOf_setBit_of_ne {w : Nat} (v : BitVec w) {i j : Nat} (b : Bool) (h : i ≠ j) :
    bitOf (setBit v i b) j = bitOf v j := by
  cases b
  case true => simp [bitOf_setBit_true, h]
  case false =>
    have hj : bitOf v j = true → j < w := BitVec.lt_of_getLsbD
    simpa [setBit, bitOf, h] using hj

/-! ## Raising and detecting, in the event unit -/

/-- R135: an event changes no condition that a detector holds, and no running injection. -/
@[simp] theorem raise_held_act (id : Nat) (s : State) :
    (raise id s).ev.held = s.ev.held ∧ (raise id s).ev.act = s.ev.act := by
  rw [raise_ev]; (repeat' split) <;> simp

/-- R151: noting an evaluation marks the injection only. -/
@[simp] theorem noteEvaluation_frame (id : Nat) (o : Bool) (e : Events) :
    (noteEvaluation id o e).sticky = e.sticky ∧ (noteEvaluation id o e).held = e.held ∧
    (noteEvaluation id o e).act = e.act := by
  unfold noteEvaluation; split <;> simp

/-- R135: a detector holds its condition as it last saw it. -/
@[simp] theorem detect_held (id : Nat) (cond : Bool) (s : State) :
    (detect id cond s).ev.held = setBit s.ev.held id cond := by
  unfold detect; dsimp only; split <;> simp

@[simp] theorem detect_act (id : Nat) (cond : Bool) (s : State) : (detect id cond s).ev.act = s.ev.act := by
  unfold detect; dsimp only; split <;> simp

/-- R135: an evaluation that makes an occurrence raises the detector's event. -/
theorem detect_sticky (id : Nat) (cond : Bool) (s : State) :
    (detect id cond s).ev.sticky = if occursNow id cond s then (raise id s).ev.sticky else s.ev.sticky := by
  unfold detect; dsimp only; split <;> simp

@[simp] theorem detect_sysLive (id : Nat) (cond : Bool) (s : State) : sysLive (detect id cond s) = sysLive s := by
  simp [sysLive]

/-- R135: a condition that begins raises the event of its detector. -/
theorem detect_sticky_of_begins (id : Nat) (s : State) (hid : id < 1024) (hs : sysLive s = true)
    (hheld : bitOf s.ev.held id = false) : isSticky id (detect id true s) = true := by
  have hoccurs : occursNow id true s = true := by simp [occursNow, hheld]
  rw [isSticky, detect_sticky, if_pos hoccurs]
  exact raise_sticky_self id s hid hs

theorem detect_sticky_mono (id i : Nat) (cond : Bool) (s : State) (h : isSticky i s = true) :
    isSticky i (detect id cond s) = true := by
  rw [isSticky, detect_sticky]; split
  · exact raise_sticky_mono id i s h
  · exact h

/-- R135, R149: without a condition and without an injection a detector raises nothing. -/
theorem detect_sticky_of_quiet (id : Nat) (s : State) (hact : s.ev.act = false) :
    (detect id false s).ev.sticky = s.ev.sticky := by
  have hquiet : occursNow id false s = false := by simp [occursNow, injected, forced, hact]
  rw [detect_sticky, hquiet, if_neg Bool.false_ne_true]

theorem detect_eq_of_ev (id : Nat) (cond : Bool) (s : State) :
    detect id cond s = { s with ev := (detect id cond s).ev } := by
  simp only [detect, raise]; (repeat' split) <;> rfl

/-! ## A parity read -/

/-- R139, log entry 49: what a read of parity memory `i` finds: with the crystal stopped, a free truth value. -/
def parityFound (i : Nat) (s : State) : Bool :=
  if s.sys.xrun then bitOf s.sys.parity i else Config.parityError s.draws i

/-- The state from which a parity read evaluates its detector: with the crystal stopped a free value has been used. -/
def parityDrawn (s : State) : State := { s with draws := if s.sys.xrun then s.draws else s.draws + 1 }

@[simp] theorem parityDrawn_sysLive (s : State) : sysLive (parityDrawn s) = sysLive s := rfl

theorem parityRead_eq_detect (i : Nat) (s : State) :
    parityRead i s = detect (parityEvent i) (parityFound i s) (parityDrawn s) := by
  unfold parityRead parityFound parityDrawn nextDraw; split <;> rfl

/-! ## The heartbeat and LIVE -/

/-- R89: the first heartbeat, or the complement of the last one, is accepted; any other value raises event 001h. -/
theorem exec_hbeatWrite (v : Word) (s : State) (hs : busLive s = true) :
    exec (.hbeatWrite v) s = .next (settled
      (if s.sys.hbSeen = false ∨ v = ~~~s.sys.hbeat then
        { served s with sys := { s.sys with hbeat := v, hbSeen := true, hbFresh := true } }
       else raise 1 (served s))) := by
  have haccept : (!(served s).sys.hbSeen || decide (v = ~~~(served s).sys.hbeat)) = true ↔
      s.sys.hbSeen = false ∨ v = ~~~s.sys.hbeat := by
    rw [Bool.or_eq_true, Bool.not_eq_true', decide_eq_true_iff]; rfl
  change complete (onBus (heartbeat v) s) = _
  rw [onBus_of_busLive _ _ hs, complete, heartbeat]
  simp only [haccept]
  rfl

theorem exec_heartbeatStale (s : State) (hs : sysLive s = true) (hfresh : s.sys.hbFresh = true) :
    exec .heartbeatStale s = .next (settled (raise 2 { s with sys := { s.sys with hbFresh := false } })) := by
  change complete (when (sysLive s && s.sys.hbFresh) _ s) = _
  rw [when_of_true _ _ (by simp [hs, hfresh]), complete]

/-- R91, R428: at a boundary LIVE toggles, or begins with event 004h where its conditions have held. -/
theorem exec_liveTimebaseBoundary (s : State) (hs : sysLive s = true) (hheld : s.sys.liveHeld = true)
    (hall : liveAll s = true) :
    exec .liveTimebaseBoundary s = .next (settled
      (if s.sys.liveOn then { s with sys := { s.sys with live := s.pwr.vddio && !s.sys.live } }
       else raise 4 { s with sys := { s.sys with liveOn := true, live := s.pwr.vddio } })) := by
  change complete (when (sysLive s) liveBoundary s) = _
  rw [when_of_true _ _ hs, complete, liveBoundary, if_pos (by simp [hheld, hall])]

/-! ## The mailbox -/

/-- The state after the parity of the oldest mailbox entry has been checked and its event raised, `rest` left behind. -/
def mailRead (m : Mail) (rest : List Mail) (s : State) : State :=
  raise m.event (parityRead 16 { s with bkp := { s.bkp with mailbox := rest } })

theorem mailRead_eq_of_ev (m : Mail) (rest : List Mail) (s : State) :
    mailRead m rest s = { s with
      ev := (mailRead m rest s).ev, draws := if s.sys.xrun then s.draws else s.draws + 1
      bkp := { s.bkp with mailbox := rest } } := by
  rw [mailRead, parityRead_eq_detect, detect_eq_of_ev]
  unfold raise; split <;> rfl

/-- R34, log entry 36: SYS takes the oldest entry; the flag that was set first takes the place that is free. -/
theorem takeMail_cons {m : Mail} {rest : List Mail} {s : State} (hmail : s.bkp.mailbox = m :: rest) :
    takeMail s = { mailRead m rest s with
      bkp := { s.bkp with mailbox := rest ++ s.bkp.flags.take 1, flags := s.bkp.flags.drop 1 } } := by
  have hbkp : (mailRead m rest s).bkp = { s.bkp with mailbox := rest } := by rw [mailRead_eq_of_ev]
  unfold takeMail
  rw [hmail]
  dsimp only
  split
  case h_1 hnone =>
    have hsame : { s.bkp with mailbox := rest ++ s.bkp.flags.take 1, flags := s.bkp.flags.drop 1 } =
        (mailRead m rest s).bkp := by simp [hbkp, hnone]
    rw [hsame]; rfl
  case h_2 f fs hflags =>
    have hnext : { s.bkp with mailbox := rest ++ s.bkp.flags.take 1, flags := s.bkp.flags.drop 1 } =
        { (mailRead m rest s).bkp with mailbox := rest ++ [f], flags := fs } := by simp [hbkp, hflags]
    rw [hnext]; rfl

/-- R472: the event of the entry occurs. -/
theorem mailRead_sticky_event (m : Mail) (rest : List Mail) (s : State) (hs : sysLive s = true) (hm : m.event < 1024) :
    isSticky m.event (mailRead m rest s) = true := by
  refine raise_sticky_self m.event _ hm ?_
  rw [parityRead_eq_detect, detect_sysLive]
  exact hs

/-- R139: a parity error that begins as the entry is read raises event 3E2h. -/
theorem mailRead_sticky_parity (m : Mail) (rest : List Mail) (s : State) (hs : sysLive s = true)
    (hbad : parityFound 16 s = true) (hheld : bitOf s.ev.held 0x3E2 = false) :
    isSticky 0x3E2 (mailRead m rest s) = true := by
  have hfound : parityFound 16 { s with bkp := { s.bkp with mailbox := rest } } = true := hbad
  rw [mailRead, parityRead_eq_detect, hfound]
  exact raise_sticky_mono _ _ _ (detect_sticky_of_begins 0x3E2 _ (by decide) hs hheld)

theorem mailRead_held_parity (m : Mail) (rest : List Mail) (s : State) :
    bitOf (mailRead m rest s).ev.held 0x3E2 = parityFound 16 s := by
  rw [mailRead, (raise_held_act _ _).1, parityRead_eq_detect, detect_held]
  exact bitOf_setBit_self _ _ _ (by decide)

theorem exec_mailboxEntry {m : Mail} {rest : List Mail} {s : State} (hs : sysLive s = true)
    (hmail : s.bkp.mailbox = m :: rest) :
    exec .mailboxEntry s = .next (settled { mailRead m rest s with
      bkp := { s.bkp with mailbox := rest ++ s.bkp.flags.take 1, flags := s.bkp.flags.drop 1 } }) := by
  change complete (when (sysLive s) takeMail s) = _
  rw [when_of_true _ _ hs, complete, takeMail_cons hmail]

theorem exec_mailboxFullSignal (s : State) (hs : sysLive s = true) (hfull : s.bkp.fullSignal = true) :
    exec .mailboxFullSignal s = .next (settled (raise 0xA { s with bkp := { s.bkp with fullSignal := false } })) := by
  change complete (when (sysLive s && s.bkp.fullSignal) _ s) = _
  rw [when_of_true _ _ (by simp [hs, hfull]), complete]

/-! ## The self checks -/

/-- R139: the self checks of a millisecond: noise source, then clocks. -/
def selfChecked (noiseBad clockBad : Bool) (s : State) : State := detect 0x3E0 clockBad (detect 0x3D3 noiseBad s)

theorem exec_selfCheckTick (noiseBad clockBad : Bool) (s : State) (hs : sysLive s = true) :
    exec (.selfCheckTick noiseBad clockBad) s = .next (settled (selfChecked noiseBad clockBad s)) := by
  change complete (when (sysLive s) _ s) = _
  rw [when_of_true _ _ hs, complete]; rfl

theorem selfChecked_eq_of_ev (noiseBad clockBad : Bool) (s : State) :
    selfChecked noiseBad clockBad s = { s with ev := (selfChecked noiseBad clockBad s).ev } := by
  rw [selfChecked, detect_eq_of_ev, detect_eq_of_ev 0x3D3]

theorem selfChecked_held (noiseBad clockBad : Bool) (s : State) :
    bitOf (selfChecked noiseBad clockBad s).ev.held 0x3D3 = noiseBad ∧
    bitOf (selfChecked noiseBad clockBad s).ev.held 0x3E0 = clockBad := by
  simp only [selfChecked, detect_held]
  constructor
  · rw [bitOf_setBit_of_ne _ _ (by decide), bitOf_setBit_self _ _ _ (by decide)]
  · exact bitOf_setBit_self _ _ _ (by decide)

theorem selfChecked_sticky_noise (clockBad : Bool) (s : State) (hs : sysLive s = true)
    (hheld : bitOf s.ev.held 0x3D3 = false) : isSticky 0x3D3 (selfChecked true clockBad s) = true :=
  detect_sticky_mono _ _ _ _ (detect_sticky_of_begins 0x3D3 s (by decide) hs hheld)

theorem selfChecked_sticky_clock (noiseBad : Bool) (s : State) (hs : sysLive s = true)
    (hheld : bitOf s.ev.held 0x3E0 = false) : isSticky 0x3E0 (selfChecked noiseBad true s) = true := by
  refine detect_sticky_of_begins 0x3E0 _ (by decide) (by rw [detect_sysLive]; exact hs) ?_
  rw [detect_held, bitOf_setBit_of_ne _ _ (by decide), hheld]

theorem selfChecked_sticky_of_quiet (s : State) (hact : s.ev.act = false) :
    (selfChecked false false s).ev.sticky = s.ev.sticky := by
  rw [selfChecked, detect_sticky_of_quiet _ _ (by rw [detect_act, hact]), detect_sticky_of_quiet _ _ hact]

/-! ## The statement -/

/-- Settles O21, command by command: the parity check and the self checks by what a detector does to the event unit. -/
theorem heartbeatMailboxAndSelfChecks : Obligations.HeartbeatMailboxAndSelfChecks := by
  unfold Obligations.HeartbeatMailboxAndSelfChecks
  refine ⟨exec_hbeatWrite, exec_heartbeatStale, exec_liveTimebaseBoundary, ?mail, exec_mailboxFullSignal, ?checks⟩
  case mail =>
    intro m rest bad s hs hmail hm hbad
    change bad = parityFound 16 s at hbad
    subst hbad
    exact ⟨_, exec_mailboxEntry hs hmail, by rw [mailRead_eq_of_ev], mailRead_sticky_event m rest s hs hm,
      mailRead_sticky_parity m rest s hs, mailRead_held_parity m rest s⟩
  case checks =>
    intro noiseBad clockBad s hs
    obtain ⟨hnoise, hclock⟩ := selfChecked_held noiseBad clockBad s
    refine ⟨_, exec_selfCheckTick noiseBad clockBad s hs, selfChecked_eq_of_ev noiseBad clockBad s, hnoise, hclock,
      ?_, ?_, ?_⟩
    · rintro rfl; exact selfChecked_sticky_noise clockBad s hs
    · rintro rfl; exact selfChecked_sticky_clock noiseBad s hs
    · rintro rfl rfl; exact selfChecked_sticky_of_quiet s

end Sys2Proof.Machine
end

section
/-! PROOFS. Requests to start and to stop channels (O34): what a start request does to a state, how CHCTL and CHSTART take their
words, then a lemma for each command. -/

namespace Sys2Proof.Machine

/-! ## Words with a bit set -/

/-- A word that has a bit set stays as it is when the bit is set in it. -/
theorem or_twoPow_of_bitOf {w : Nat} (v : BitVec w) (i : Nat) (h : bitOf v i = true) : v ||| BitVec.twoPow w i = v := by
  have hset : setBit v i true = v := by
    refine BitVec.eq_of_getLsbD_eq fun j hj => ?_
    have hbit : bitOf (setBit v i true) j = (bitOf v j || (decide (j < w) && decide (i = j))) := bitOf_setBit_true v i j
    by_cases hij : i = j
    · subst hij; rw [show (setBit v i true).getLsbD i = _ from hbit, h]; exact h.symm
    · simpa [hij] using hbit
  simpa [setBit] using hset

theorem bitOf_or {w : Nat} (v m : BitVec w) (i : Nat) : bitOf (v ||| m) i = (bitOf v i || bitOf m i) :=
  BitVec.getLsbD_or

/-- A low field of a word does not see bits set above it. -/
theorem fieldOf_or_of_zero (v m : Word) (n : Nat) (h : m.toNat % 2 ^ n = 0) : fieldOf (v ||| m) 0 n = fieldOf v 0 n := by
  simp [fieldOf, BitVec.toNat_or, Nat.or_mod_two_pow, h]

/-- A word whose bit `b` is set: setting `a` and then `b` sets `a` only. -/
theorem or_or_of_bitOf {w : Nat} (v a : BitVec w) (i : Nat) (h : bitOf v i = true) :
    v ||| a ||| BitVec.twoPow w i = v ||| a := by
  rw [BitVec.or_assoc, BitVec.or_comm a, ← BitVec.or_assoc, or_twoPow_of_bitOf v i h]

/-! ## A start request -/

theorem sysLive_of_startup {s : State} (h : s.pwr.phase = .startup) : sysLive s = true := by simp [sysLive, h]

/-- R177, R184: a request joins the last one before it, or waits behind it. -/
theorem joinRequest_eq (join : Bool) (m : BitVec 4) (xs : List (BitVec 4)) :
    joinRequest join m xs = xs ++ [m] ∨
      ∃ rest last, xs = rest ++ [last] ∧ joinRequest join m xs = rest ++ [last ||| m] := by
  match xs with
  | [] => exact .inl rfl
  | [last] =>
    cases join
    case false => exact .inl rfl
    case true => exact .inr ⟨[], last, rfl, rfl⟩
  | x :: y :: ys =>
    have hcons : joinRequest join m (x :: y :: ys) = x :: joinRequest join m (y :: ys) := rfl
    rcases joinRequest_eq join m (y :: ys) with hlast | ⟨rest, last, hrest, hjoin⟩
    · exact .inl (by rw [hcons, hlast]; rfl)
    · exact .inr ⟨x :: rest, last, by rw [hrest]; rfl, by rw [hcons, hjoin]; rfl⟩

theorem startRequest_zero (s : State) : startRequest 0 s = s := rfl

/-- R78: a start that is requested in start-up is held, with event 005h. -/
theorem startRequest_of_startup {m : BitVec 4} {s : State} (hm : m ≠ 0) (hs : s.pwr.phase = .startup) :
    startRequest m s = raise 5 { s with fe := { s.fe with heldStarts := s.fe.heldStarts ||| m } } := by
  rw [startRequest, if_neg hm, if_pos hs]

/-- R177, R184, log entry 25: a start that is requested later waits behind the earlier ones or joins the last of them. -/
theorem startRequest_of_run {m : BitVec 4} {s : State} (hm : m ≠ 0) (hs : s.pwr.phase ≠ .startup) :
    ∃ (join : Bool) (n : Nat), startRequest m s =
      { s with fe := { s.fe with starts := joinRequest join m s.fe.starts }, draws := n } := by
  rw [startRequest, if_neg hm, if_neg hs]
  split
  case isTrue hnone => exact ⟨false, s.draws, by rw [hnone]; rfl⟩
  case isFalse => exact ⟨_, _, rfl⟩

/-- What a start request leaves of the front end, and that a start is requested. -/
theorem startRequest_startAsked (m : BitVec 4) (s : State) :
    StartAsked m s (startRequest m s) ∧ (startRequest m s).fe.ch = s.fe.ch ∧
    (startRequest m s).fe.goWait = s.fe.goWait := by
  by_cases hm : m = 0
  case pos =>
    subst hm; rw [startRequest_zero]
    exact ⟨⟨rfl, fun _ => ⟨rfl, rfl, rfl⟩, fun _ h => absurd rfl h, fun _ h => absurd rfl h⟩, rfl, rfl⟩
  by_cases hs : s.pwr.phase = .startup
  case pos =>
    have hlive : sysLive { s with fe := { s.fe with heldStarts := s.fe.heldStarts ||| m } } = true := sysLive_of_startup hs
    rw [startRequest_of_startup hm hs]
    refine ⟨⟨?frame, fun h => absurd h hm, fun _ _ => ⟨by simp, by simp, raise_sticky_self 5 _ (by decide) hlive⟩,
      fun h => absurd hs h⟩, by simp, by simp⟩
    case frame => rw [raise, if_pos hlive]
  case neg =>
    obtain ⟨join, n, h⟩ := startRequest_of_run hm hs
    rw [h]
    exact ⟨⟨rfl, fun h => absurd h hm, fun h => absurd h hs, fun _ _ => ⟨rfl, rfl, joinRequest_eq join m s.fe.starts⟩⟩,
      rfl, rfl⟩

/-- Fields of the front end other than the requests for a start may be set before a start request, and after it. -/
theorem StartAsked.of_fe {m : BitVec 4} {s u : State} {f g : Front} (h : StartAsked m { s with fe := f } u)
    (hheld : f.heldStarts = s.fe.heldStarts) (hstarts : f.starts = s.fe.starts)
    (hheld' : g.heldStarts = u.fe.heldStarts) (hstarts' : g.starts = u.fe.starts) :
    StartAsked m s { u with fe := g } := by
  obtain ⟨hframe, hzero, hstartup, hrun⟩ := h
  refine ⟨by rw [hframe], fun hm => ?zero, fun hs hm => ?startup, fun hs hm => ?run⟩
  case zero => simpa only [hheld, hstarts, hheld', hstarts'] using hzero hm
  case startup => simpa only [hheld, hstarts, hheld', hstarts', isSticky] using hstartup hs hm
  case run => simpa only [hheld, hstarts, hheld', hstarts'] using hrun hs hm

/-! ## CHCTL -/

/-- R177, R180: CHCTL written with START and without STOP: its configuration fields, START, the request of its channel. -/
theorem exec_channelStartRequest (k : Chan) (w : Word) (s : State) (hs : busLive s = true) (hstop : bitOf w 14 = false) :
    exec (.channelStartRequest k w) s = .next (settled (startRequest (oneChannel k)
      (modFe k (fun c => { c with startBit := true }) (chctlConfig k (w ||| 0x8000) (served s))))) := by
  have hstop' : bitOf (w ||| 0x8000) 14 = false := by rw [bitOf_or, hstop]; rfl
  have hstart' : bitOf (w ||| 0x8000) 15 = true := by rw [bitOf_or]; exact Bool.or_true _
  change complete (onBus (writeChctl k (w ||| 0x8000)) s) = _
  rw [onBus_of_busLive _ _ hs, complete, writeChctl, hstop', if_neg Bool.false_ne_true, if_pos hstart']

/-- R178, R180: CHCTL written with STOP. -/
theorem exec_channelStopRequest (k : Chan) (w : Word) (s : State) (hs : busLive s = true) :
    exec (.channelStopRequest k w) s = .next (settled (stopRequest (oneChannel k)
      (modFe k (fun c => { c with stopBit := true }) (chctlConfig k (w ||| 0x4000) (served s))))) := by
  have hstop' : bitOf (w ||| 0x4000) 14 = true := by rw [bitOf_or]; exact Bool.or_true _
  change complete (onBus (writeChctl k (w ||| 0x4000)) s) = _
  rw [onBus_of_busLive _ _ hs, complete, writeChctl, if_pos hstop']

/-- R183: START and STOP written together act as STOP. -/
theorem exec_channelStartRequest_of_stop (k : Chan) (w : Word) (s : State) (hstop : bitOf w 14 = true) :
    exec (.channelStartRequest k w) s = exec (.channelStopRequest k (w ||| 0x8000)) s := by
  change complete (onBus (writeChctl k (w ||| 0x8000)) s) =
    complete (onBus (writeChctl k (w ||| 0x8000 ||| BitVec.twoPow 16 14)) s)
  rw [or_or_of_bitOf w 0x8000 14 hstop]

/-- R177: a start is asked for by START of CHCTL, which reads 1 from then on; GO of CHSTART is left as it is. -/
theorem channelStart_startAsked (k : Chan) {s u : State}
    (hu : u = startRequest (oneChannel k) (modFe k (fun c => { c with startBit := true }) s)) :
    StartAsked (BitVec.twoPow 4 k.val) s u ∧ u.fe.ch = (modFe k (fun c => { c with startBit := true }) s).fe.ch ∧
    u.fe.goWait = s.fe.goWait := by
  subst hu
  obtain ⟨hasked, hch, hgo⟩ := startRequest_startAsked (oneChannel k) (modFe k (fun c => { c with startBit := true }) s)
  exact ⟨hasked.of_fe rfl rfl rfl rfl, hch, hgo⟩

/-! ## CHSTART -/

/-- The state in which a CHSTART word has set its RW fields and requested a CANCEL (Table 06-11). -/
def chstartSet (w : Word) (s : State) : State :=
  { s with fe := { s.fe with
    syncm := bitOf w 8, mask := BitVec.ofNat 4 (fieldOf w 0 4), cancel := s.fe.cancel || bitOf w 13
    cancelWait := s.fe.cancelWait || bitOf w 13, cancelHits := s.fe.cancelHits || bitOf w 13 } }

/-- R177 to R179: a write of CHSTART sets its fields and requests a CANCEL, then STOP, or else arms or requests a start. -/
theorem writeChstart_eq (v : Word) (s : State) :
    writeChstart v s =
      if bitOf v 14 then stopAllRequest (BitVec.ofNat 4 (fieldOf v 0 4)) (chstartSet v s)
      else if bitOf v 15 then
        if bitOf v 8 then armStart (bitOf v 13) (chstartSet v s)
        else goRequest (BitVec.ofNat 4 (fieldOf v 0 4)) (chstartSet v s)
      else chstartSet v s := by
  have hset : when (bitOf v 13) cancelRequest
      { s with fe := { s.fe with syncm := bitOf v 8, mask := BitVec.ofNat 4 (fieldOf v 0 4) } } = chstartSet v s := by
    cases h : bitOf v 13
    case false => simp only [when, chstartSet, h, Bool.or_false]; rfl
    case true => simp only [when, chstartSet, h, Bool.or_true]; rfl
  rw [writeChstart]
  dsimp only
  rw [hset]

/-- Setting GO, STOP or CANCEL alone in a word leaves what else it says of the RW fields. -/
theorem chstartSet_or (w m : Word) (s : State) (hm : m.toNat % 2 ^ 4 = 0) (h8 : bitOf m 8 = false)
    (h13 : bitOf m 13 = false) : chstartSet (w ||| m) s = chstartSet w s := by
  have hf : fieldOf (w ||| m) 0 4 = fieldOf w 0 4 := fieldOf_or_of_zero w m 4 hm
  simp only [chstartSet, hf, bitOf_or, h8, h13, Bool.or_false]

/-- R177, R179: GO without STOP arms CHSTART with SYNCM = 1, and requests a start of the channels in MASK with SYNCM = 0. -/
theorem writeChstart_go (w : Word) (s : State) (hstop : bitOf w 14 = false) :
    writeChstart (w ||| 0x8000) s =
      if bitOf w 8 then armStart (bitOf w 13) (chstartSet w s)
      else goRequest (BitVec.ofNat 4 (fieldOf w 0 4)) (chstartSet w s) := by
  have hf : fieldOf (w ||| 0x8000) 0 4 = fieldOf w 0 4 := fieldOf_or_of_zero w _ 4 (by decide)
  have h8 : bitOf (w ||| 0x8000) 8 = bitOf w 8 := by rw [bitOf_or]; exact Bool.or_false _
  have h13 : bitOf (w ||| 0x8000) 13 = bitOf w 13 := by rw [bitOf_or]; exact Bool.or_false _
  have h14 : bitOf (w ||| 0x8000) 14 = false := by rw [bitOf_or, hstop]; rfl
  have h15 : bitOf (w ||| 0x8000) 15 = true := by rw [bitOf_or]; exact Bool.or_true _
  rw [writeChstart_eq, h14, if_neg Bool.false_ne_true, if_pos h15, h8, h13, hf,
    chstartSet_or w _ s (by decide) (by decide) (by decide)]

/-- R178: STOP of CHSTART, whatever GO says. -/
theorem writeChstart_stop (w : Word) (s : State) :
    writeChstart (w ||| 0x4000) s = stopAllRequest (BitVec.ofNat 4 (fieldOf w 0 4)) (chstartSet w s) := by
  have hf : fieldOf (w ||| 0x4000) 0 4 = fieldOf w 0 4 := fieldOf_or_of_zero w _ 4 (by decide)
  have h14 : bitOf (w ||| 0x4000) 14 = true := by rw [bitOf_or]; exact Bool.or_true _
  rw [writeChstart_eq, if_pos h14, hf, chstartSet_or w _ s (by decide) (by decide) (by decide)]

/-- R179: CANCEL without GO and STOP. -/
theorem writeChstart_cancel (w : Word) (s : State) (hstop : bitOf w 14 = false) (hgo : bitOf w 15 = false) :
    writeChstart (w ||| 0x2000) s = cancelRequest (chstartSet w s) := by
  have hf : fieldOf (w ||| 0x2000) 0 4 = fieldOf w 0 4 := fieldOf_or_of_zero w _ 4 (by decide)
  have h8 : bitOf (w ||| 0x2000) 8 = bitOf w 8 := by rw [bitOf_or]; exact Bool.or_false _
  have h13 : bitOf (w ||| 0x2000) 13 = true := by rw [bitOf_or]; exact Bool.or_true _
  have h14 : bitOf (w ||| 0x2000) 14 = false := by rw [bitOf_or, hstop]; rfl
  have h15 : bitOf (w ||| 0x2000) 15 = false := by rw [bitOf_or, hgo]; rfl
  rw [writeChstart_eq, h14, h15, if_neg Bool.false_ne_true, if_neg Bool.false_ne_true]
  simp only [chstartSet, cancelRequest, hf, h8, h13, Bool.or_true]

/-- R179, R186: an arming that GO makes is reached by a CANCEL of the same word, not by one written before. -/
theorem armStart_chstartSet (w : Word) (s : State) :
    armStart (bitOf w 13) (chstartSet w s) = { chstartSet w s with fe := { (chstartSet w s).fe with
      armed := true, armWait := 2, cancelHits := bitOf w 13 } } := by
  have hhits : ((chstartSet w s).fe.cancelHits && bitOf w 13) = bitOf w 13 := by
    simp only [chstartSet]; cases bitOf w 13 <;> simp
  rw [armStart, hhits]

/-- R177: GO with SYNCM = 0 asks for a start and reads 1 where MASK names a channel. -/
theorem goRequest_startAsked (m : BitVec 4) (s : State) :
    StartAsked m s (goRequest m s) ∧ (goRequest m s).fe.ch = s.fe.ch ∧
    (m = 0 → (goRequest m s).fe.goWait = 0) ∧ (m ≠ 0 → 0 < (goRequest m s).fe.goWait) := by
  obtain ⟨hasked, hch, -⟩ := startRequest_startAsked m s
  refine ⟨hasked.of_fe rfl rfl rfl rfl, hch, fun hm => by simp [goRequest, hm], fun hm => ?_⟩
  simp only [goRequest, if_neg hm]
  omega

/-- The mask that a word names is empty where its field is 0. -/
theorem ofNat_fieldOf_eq_zero_iff (w : Word) : BitVec.ofNat 4 (fieldOf w 0 4) = 0 ↔ fieldOf w 0 4 = 0 := by
  have hlt : fieldOf w 0 4 < 2 ^ 4 := Nat.mod_lt _ (by decide)
  rw [← BitVec.toNat_inj, BitVec.toNat_ofNat, Nat.mod_eq_of_lt hlt]
  rfl

theorem exec_chstartGo (w : Word) (s : State) (hs : busLive s = true) :
    exec (.chstartGo w) s = .next (settled (writeChstart (w ||| 0x8000) (served s))) := by
  change complete (onBus (writeChstart (w ||| 0x8000)) s) = _
  rw [onBus_of_busLive _ _ hs, complete]

theorem exec_chstartStop (w : Word) (s : State) (hs : busLive s = true) :
    exec (.chstartStop w) s = .next (settled (writeChstart (w ||| 0x4000) (served s))) := by
  change complete (onBus (writeChstart (w ||| 0x4000)) s) = _
  rw [onBus_of_busLive _ _ hs, complete]

theorem exec_chstartCancel (w : Word) (s : State) (hs : busLive s = true) :
    exec (.chstartCancel w) s = .next (settled (writeChstart (w ||| 0x2000) (served s))) := by
  change complete (onBus (writeChstart (w ||| 0x2000)) s) = _
  rw [onBus_of_busLive _ _ hs, complete]

/-- R183: GO and STOP written together act as STOP. -/
theorem exec_chstartGo_of_stop (w : Word) (s : State) (hstop : bitOf w 14 = true) :
    exec (.chstartGo w) s = exec (.chstartStop (w ||| 0x8000)) s := by
  change complete (onBus (writeChstart (w ||| 0x8000)) s) =
    complete (onBus (writeChstart (w ||| 0x8000 ||| BitVec.twoPow 16 14)) s)
  rw [or_or_of_bitOf w 0x8000 14 hstop]

theorem exec_chstartCancel_of_stop (w : Word) (s : State) (hstop : bitOf w 14 = true) :
    exec (.chstartCancel w) s = exec (.chstartStop (w ||| 0x2000)) s := by
  change complete (onBus (writeChstart (w ||| 0x2000)) s) =
    complete (onBus (writeChstart (w ||| 0x2000 ||| BitVec.twoPow 16 14)) s)
  rw [or_or_of_bitOf w 0x2000 14 hstop]

theorem exec_chstartCancel_of_go (w : Word) (s : State) (hgo : bitOf w 15 = true) :
    exec (.chstartCancel w) s = exec (.chstartGo (w ||| 0x2000)) s := by
  change complete (onBus (writeChstart (w ||| 0x2000)) s) =
    complete (onBus (writeChstart (w ||| 0x2000 ||| BitVec.twoPow 16 15)) s)
  rw [or_or_of_bitOf w 0x2000 15 hgo]

/-! ## What reaches MOD -/

/-- R179: a CANCEL reaches MOD. -/
theorem exec_cancelTakesEffect (s : State) (hs : sysLive s = true) (hx : s.sys.xrun = true)
    (hwait : s.fe.cancelWait = true) : exec .cancelTakesEffect s = .next (settled (cancelEffect s)) := by
  change complete (when (modClock s && s.fe.cancelWait) cancelEffect s) = _
  rw [when_of_true _ _ (by simp [modClock, hs, hx, hwait]), complete]

/-- R179: a rising edge on SYNC while ARMED. -/
theorem exec_syncEdge (s : State) (hs : sysLive s = true) (hx : s.sys.xrun = true) (hio : s.pwr.vddio = true)
    (harmed : s.fe.armed = true) : exec .syncEdge s = .next (settled (syncEdge s)) := by
  change complete (when (modClock s && s.pwr.vddio && s.fe.armed) syncEdge s) = _
  rw [when_of_true _ _ (by simp [modClock, hs, hx, hio, harmed]), complete]

/-- The state in which an edge on SYNC has ended the arming. -/
def disarmed (s : State) : State := { s with fe := { s.fe with armed := false, armWait := 0, cancelHits := false } }

/-- R179: an edge that is taken ends the arming and asks for a start of the channels in MASK. -/
theorem takeEdge_startAsked (s : State) :
    StartAsked s.fe.mask (disarmed s) (takeEdge s) ∧ (takeEdge s).fe.ch = s.fe.ch := by
  obtain ⟨hasked, hch, -⟩ := startRequest_startAsked s.fe.mask (disarmed s)
  exact ⟨hasked, hch⟩

/-- Log entry 25: while an arming is still on its way into MOD, a free value says whether the edge is taken. -/
theorem syncEdge_of_armWait {s : State} (hwait : s.fe.armWait ≠ 0) :
    syncEdge s = if Config.armTaken s.draws then takeEdge { s with draws := s.draws + 1 }
      else { s with draws := s.draws + 1 } := by
  rw [syncEdge, if_neg hwait]; rfl

/-! ## The statement -/

/-- Settles O34, command by command: what a start request does to a state (`startRequest_startAsked`) gives every start that
is asked for; the words of CHCTL and CHSTART are taken apart by their bits. -/
theorem startAndStopRequests : Obligations.StartAndStopRequests := by
  unfold Obligations.StartAndStopRequests
  refine ⟨?chctlStart, ?chctlStop, exec_channelStartRequest_of_stop, ?chstart, ?mod⟩
  case chctlStart =>
    rintro k w s s1 hs rfl hstop
    exact ⟨_, exec_channelStartRequest k w s hs hstop, channelStart_startAsked k rfl⟩
  case chctlStop =>
    rintro k w s s1 hs rfl
    exact exec_channelStopRequest k w s hs
  case chstart =>
    intro w s s1 hs hs1
    change s1 = chstartSet w (served s) at hs1
    subst hs1
    refine ⟨fun hstop hsync => ?arm, fun hstop hsync => ?go, exec_chstartGo_of_stop w s, ?stop,
      fun hstop hgo => ?cancel, exec_chstartCancel_of_stop w s, exec_chstartCancel_of_go w s⟩
    case arm => rw [exec_chstartGo w s hs, writeChstart_go w _ hstop, if_pos hsync, armStart_chstartSet]
    case go =>
      obtain ⟨hasked, hch, hzero, hpos⟩ :=
        goRequest_startAsked (BitVec.ofNat 4 (fieldOf w 0 4)) (chstartSet w (served s))
      refine ⟨_, by rw [exec_chstartGo w s hs, writeChstart_go w _ hstop, hsync, if_neg Bool.false_ne_true], hasked, hch,
        fun h => hzero ((ofNat_fieldOf_eq_zero_iff w).2 h), fun h => hpos (mt (ofNat_fieldOf_eq_zero_iff w).1 h)⟩
    case stop =>
      rw [exec_chstartStop w s hs, writeChstart_stop]
      simp [stopAllRequest, stopRequest]
    case cancel => rw [exec_chstartCancel w s hs, writeChstart_cancel w _ hstop hgo]; rfl
  case mod =>
    intro s hs hx
    refine ⟨exec_cancelTakesEffect s hs hx, fun s1 hio harmed hs1 => ?edge⟩
    subst hs1
    rw [exec_syncEdge s hs hx hio harmed]
    refine ⟨fun hwait => ⟨_, rfl, ?now⟩, fun hwait htaken => ⟨_, rfl, ?taken⟩, fun hwait htaken => ?missed⟩
    case now => rw [syncEdge, if_pos hwait]; exact takeEdge_startAsked s
    case taken =>
      rw [syncEdge_of_armWait hwait, if_pos htaken]
      exact takeEdge_startAsked { s with draws := s.draws + 1 }
    case missed => rw [syncEdge_of_armWait hwait, htaken, if_neg Bool.false_ne_true]

end Sys2Proof.Machine
end

section
/-! PROOFS. The supplies (O20): what is left of the BKP domain where neither VDD nor VBAT supplies it, then a lemma for each
supply that comes or goes. -/

namespace Sys2Proof.Machine

/-- R65, R81: a domain that has a supply keeps what it holds. -/
theorem bkpCheck_of_supplied {s : State} (h : bkpSupplied s = true) : bkpCheck s = s := by rw [bkpCheck, if_pos h]

/-- R81, R434: a domain without a supply is reset. -/
theorem bkpCheck_of_unsupplied {s : State} (h : bkpSupplied s = false) : bkpCheck s = resetBkp s := by
  rw [bkpCheck, h, if_neg Bool.false_ne_true]

/-- R87: the loss of VBAT while the domain runs from VDD. -/
theorem exec_vbatLoss_of_onVdd (s : State) (hvdd : s.pwr.bkpOnVdd = true) :
    exec .vbatLoss s = .next (settled { s with pwr := { s.pwr with vbat := false } }) := by
  change complete (bkpCheck _) = _
  rw [bkpCheck_of_supplied (by simp [bkpSupplied, hvdd]), complete]

/-- R81, R434: the loss of VBAT where it was the only supply of the domain. -/
theorem exec_vbatLoss_of_notOnVdd (s : State) (hvdd : s.pwr.bkpOnVdd = false) :
    exec .vbatLoss s = .next (settled (resetBkp { s with pwr := { s.pwr with vbat := false } })) := by
  change complete (bkpCheck _) = _
  rw [bkpCheck_of_unsupplied (by simp [bkpSupplied, hvdd]), complete]

/-- The state in which the BKP supply has switched over, before the domain is looked at. -/
def switchedOver (sw : SupplySwitch) (s : State) : State :=
  { s with pwr := { s.pwr with bkpOnVdd := sw.toVdd, vdd := sw.toVdd, vbat := sw.vbat } }

/-- R65: a switchover, which comes only where SYS no longer runs. -/
theorem exec_bkpSupplySwitch (sw : SupplySwitch) (s : State)
    (hphase : s.pwr.phase = .lockup ∨ s.pwr.phase = .powerFail) :
    exec (.bkpSupplySwitch sw) s = .next (settled (bkpCheck (switchedOver sw s))) := by
  change execBkpSupplySwitch sw s = _
  rcases hphase with h | h <;> rw [execBkpSupplySwitch, h] <;> rfl

/-- Settles O20, supply by supply: what a switchover or a loss does to the BKP domain is decided by `bkpCheck`. -/
theorem supplyChanges : Obligations.SupplyChanges := by
  unfold Obligations.SupplyChanges
  refine ⟨exec_vbatLoss_of_onVdd, exec_vbatLoss_of_notOnVdd, fun sw s hphase => ?switch, fun s => ⟨rfl, rfl⟩⟩
  rw [exec_bkpSupplySwitch sw s hphase]
  constructor
  case left =>
    intro hsupply
    rw [bkpCheck_of_supplied (by simpa [bkpSupplied, switchedOver] using hsupply)]
    rfl
  case right =>
    intro hvdd hvbat
    have hnone : bkpSupplied (switchedOver sw s) = false := by simp [bkpSupplied, switchedOver, hvdd, hvbat]
    rw [bkpCheck_of_unsupplied hnone]
    exact ⟨_, rfl, rfl, rfl, rfl, rfl⟩

end Sys2Proof.Machine
end

section
/-! PROOFS. The resets of the running device (O14): what leaves a reset that waits as it was, operation by operation; what a
reset that is taken leaves; then the commands that ask for one and those behind whose end one waits. -/

namespace Sys2Proof.Machine

/-! ## What logging leaves -/

/-- `t` differs from `s` at most in what queuing entries of the log changes: the log, the buffer behind it, the event unit, the
stores in progress and the check values that are due. -/
@[simp] abbrev OnlyLogs (s t : State) : Prop :=
  t.pwr = s.pwr ∧ t.sys = s.sys ∧ t.sl = s.sl ∧ t.nv.mem = s.nv.mem ∧ t.nv.flaws = s.nv.flaws ∧ t.nv.ring = s.nv.ring ∧
  t.nv.running = s.nv.running ∧ t.sh = s.sh ∧ t.key.afterReset = s.key.afterReset ∧ t.key.op = s.key.op ∧ t.fk = s.fk ∧
  t.port = s.port ∧ t.fe = s.fe ∧ t.ev.held = s.ev.held ∧ t.bkp.sec = s.bkp.sec ∧ t.bkp.frac = s.bkp.frac ∧
  t.bkp.valid = s.bkp.valid

theorem OnlyLogs.trans {s t u : State} (h1 : OnlyLogs s t) (h2 : OnlyLogs t u) : OnlyLogs s u := by
  simp only [OnlyLogs] at h1 h2 ⊢
  simp [h1, h2]

theorem forAll_onlyLogs {α : Type} (xs : List α) (f : α → State → State) (h : ∀ x t, OnlyLogs t (f x t)) (s : State) :
    OnlyLogs s (forAll xs f s) := by
  induction xs generalizing s with
  | nil => simp [forAll]
  | cons x xs ih => exact (h x s).trans (ih (f x s))

theorem enterQueue_onlyLogs (e : Entry) (s : State) : OnlyLogs s (enterQueue e s) := by
  unfold enterQueue; (repeat' split) <;> simp

theorem queueEntry_onlyLogs (e : Entry) (s : State) : OnlyLogs s (queueEntry e s) := by
  unfold queueEntry
  split
  · simp
  · simp
  · exact enterQueue_onlyLogs e s

theorem bufferEntry_onlyLogs (e : Entry) (s : State) : OnlyLogs s (bufferEntry e s) := by
  unfold bufferEntry; split <;> simp [countLost]

/-- R389, R385: wherever an entry goes. -/
theorem logNow_onlyLogs (code : Byte) (data : W32) (s : State) : OnlyLogs s (logNow code data s) := by
  unfold logNow logEntry
  split
  · simp
  · exact bufferEntry_onlyLogs _ s
  · exact bufferEntry_onlyLogs _ s
  · exact queueEntry_onlyLogs _ s

/-- R409: check values that are due are queued. -/
theorem flushCheck_onlyLogs (s : State) : OnlyLogs s (flushCheck s) := by
  refine OnlyLogs.trans (t := { s with key := { s.key with check := [] } }) ?_
    (forAll_onlyLogs _ _ (fun key t => logNow_onlyLogs 0x60 (linkCheckData key) t) _)
  simp [Keys.afterReset]

theorem shedStores_onlyLogs (s : State) : OnlyLogs s (shedStores s) := by
  unfold shedStores
  dsimp only
  refine OnlyLogs.trans ?_ (forAll_onlyLogs _ _
    (fun (l : LegalStore) t => logNow_onlyLogs (storeEntry l.kind).1 (storeEntry l.kind).2 t) _)
  simp

/-! ## A reset that is taken -/

theorem resetWaits_of_onlyLogs {s t : State} (h : OnlyLogs s t) : resetWaits t = resetWaits s := by
  simp only [OnlyLogs] at h
  simp [resetWaits, h]

/-- Table 03-3: the fields of a reset. -/
theorem resetFields_afterReset (cause : BitVec 3) (s : State) : AfterReset s (resetFields cause s) :=
  ⟨rfl, rfl, rfl, rfl, rfl, rfl, rfl, rfl, rfl, rfl, rfl, rfl, rfl, rfl, rfl, rfl, rfl, rfl, rfl, rfl, rfl, rfl, rfl, rfl,
    rfl, rfl, rfl, rfl, rfl, rfl, rfl, rfl⟩

/-- What a reset keeps is what logging left as it was. -/
theorem AfterReset.of_onlyLogs {s t u : State} (h : OnlyLogs s t) (hu : AfterReset t u) : AfterReset s u := by
  obtain ⟨-, hsys, hsl, hmem, hflaws, -, -, hsh, hkey, -, hfk, -, -, hheld, hsec, hfrac, hvalid⟩ := h
  simp only [Keys.afterReset, Keys.mk.injEq] at hkey
  simpa only [AfterReset, hsys, hsl, hmem, hflaws, hsh, hkey, hfk, hheld, hsec, hfrac, hvalid] using hu

/-- R409: a check value that is due goes to the log first; then the reset leaves what Table 03-3 says. -/
theorem resetSys_afterReset (cause : BitVec 3) (s : State) : AfterReset s (resetSys cause s) :=
  .of_onlyLogs (flushCheck_onlyLogs s) (resetFields_afterReset cause _)

/-- What else a reset leaves of the power unit, the twin, the rings, the port and the presence bits. -/
@[simp] theorem resetSys_frame (cause : BitVec 3) (s : State) :
    (resetSys cause s).pwr.phase = .reset ∧ (resetSys cause s).pwr.cause = cause ∧
    (resetSys cause s).pwr.heldReset = none ∧ (resetSys cause s).pwr.srst = false ∧
    (resetSys cause s).pwr.releaseEvents = s.pwr.releaseEvents ∧
    (resetSys cause s).nv.running = none ∧ (resetSys cause s).nv.ring = s.nv.ring ∧
    (resetSys cause s).key.op = none ∧ (resetSys cause s).key.pres = s.key.pres ∧
    (resetSys cause s).sh.sram = s.sh.sram ∧ (resetSys cause s).sh.disc = s.sh.staging.isSome ∧
    (resetSys cause s).port.ir = s.port.ir := by
  obtain ⟨hpwr, -, -, -, -, hring, -, hsh, hkey, -, -, hport, -⟩ := flushCheck_onlyLogs s
  simp only [Keys.afterReset, Keys.mk.injEq] at hkey
  simp [resetSys, resetFields, Nv.afterReset, Nv.reset, Keys.afterReset, Shadow.afterReset, Port.afterReset, hpwr, hring,
    hsh, hkey, hport]

/-! ## The end of a command behind which a reset waits -/

/-- R72: in the internal reset the controller starts nothing. -/
theorem kick_of_reset {s : State} (h : s.pwr.phase = .reset) : kick s = s := by
  have hstart : mayStart s = false := by simp [mayStart, h]
  rw [kick, hstart, Bool.not_false, if_pos rfl]

/-- R72: a reset that has waited is taken, with its cause, once nothing holds it. -/
theorem settled_of_heldReset {s : State} {cause : BitVec 3} (hheld : s.pwr.heldReset = some cause)
    (hfree : resetWaits s = false) :
    settled s = { liveCheck (resetSys cause (admitHeld (injectionCheck s))) with mark := .none } := by
  have hheld' : (admitHeld (injectionCheck s)).pwr.heldReset = some cause := by simpa using hheld
  have hfree' : resetWaits (admitHeld (injectionCheck s)) = false := by simpa [resetWaits] using hfree
  have hreset : (resetSys cause (admitHeld (injectionCheck s))).pwr.phase = .reset := by simp
  rw [settled, settleReset, hheld']
  dsimp only
  rw [hfree', if_neg Bool.false_ne_true, kick_of_reset hreset]

/-- What the end of a command shows of the reset that it takes. -/
theorem settled_takes_reset {s : State} {cause : BitVec 3} (hheld : s.pwr.heldReset = some cause)
    (hfree : resetWaits s = false) :
    (settled s).pwr.phase = .reset ∧ (settled s).pwr.cause = cause ∧ (settled s).pwr.heldReset = none ∧
    (settled s).pwr.releaseEvents = s.pwr.releaseEvents ∧ (settled s).nv.running = none ∧ (settled s).key.op = none ∧
    (settled s).key.pres = s.key.pres := by
  rw [settled_of_heldReset hheld hfree]
  simp

/-! ## The commands that ask for a reset -/

/-- R72: a reset that arrives while nothing holds it is taken at once. -/
theorem arriveReset_of_free (cause : BitVec 3) {s : State} (hfree : resetWaits s = false) :
    AfterReset s (arriveReset cause s) ∧ (arriveReset cause s).pwr.cause = cause ∧
    (arriveReset cause s).sh.sram = s.sh.sram ∧ (arriveReset cause s).sh.disc = s.sh.staging.isSome ∧
    (arriveReset cause s).nv.ring = s.nv.ring ∧ (arriveReset cause s).port.ir = s.port.ir := by
  have hshed := shedStores_onlyLogs s
  have htaken : arriveReset cause s = resetSys cause (shedStores s) := by
    rw [arriveReset, resetWaits_of_onlyLogs hshed, hfree, if_neg Bool.false_ne_true]
  obtain ⟨-, -, -, -, -, hring, -, hsh, -, -, -, hport, -⟩ := id hshed
  rw [htaken]
  exact ⟨.of_onlyLogs hshed (resetSys_afterReset cause _), by simp [hring, hsh, hport]⟩

/-- R72, log entry 38: a reset that arrives while an operation or a key command runs waits; the first one gives the cause. -/
theorem arriveReset_of_waits (cause : BitVec 3) {s : State} (hwaits : resetWaits s = true) :
    (arriveReset cause s).pwr.heldReset = some (s.pwr.heldReset.getD cause) ∧
    (arriveReset cause s).pwr.phase = s.pwr.phase ∧ (arriveReset cause s).nv.running = s.nv.running ∧
    (arriveReset cause s).nv.host = none ∧ (arriveReset cause s).nv.mem = s.nv.mem ∧
    (arriveReset cause s).sh = s.sh ∧ (arriveReset cause s).fe = s.fe ∧ (arriveReset cause s).sys = s.sys := by
  have hshed := shedStores_onlyLogs s
  have hheld : arriveReset cause s = { shedStores s with
      pwr := { (shedStores s).pwr with heldReset := some ((shedStores s).pwr.heldReset.getD cause) }
      nv := { (shedStores s).nv with host := none } } := by
    rw [arriveReset, resetWaits_of_onlyLogs hshed, hwaits, if_pos rfl]
  obtain ⟨hpwr, hsys, -, -, -, -, hrunning, hsh, -, -, -, -, hfe, -⟩ := hshed
  rw [hheld]
  simp [hpwr, hsys, hrunning, hsh, hfe]

/-- R12, R72: SRST reads 1 while a soft reset waits. -/
theorem busRead_sysctl_srst {s : State} (h : s.pwr.srst = true) : bitOf (busRead 0x04 s).1 7 = true := by
  have hread : (busRead 0x04 s).1 = sysctlWord s := rfl
  have hset : bitOf (BitVec.ofNat 16 (flag true * 2 ^ 7)) 7 = true := by decide
  rw [hread, sysctlWord, packWord, h, bitOf_or, hset, Bool.true_or]

/-- The three resets of the running device and their causes (Table 03-3). -/
theorem asksReset_cases {c : Instr} {s : State} {cause : BitVec 3} (h : asksReset c s = some cause) :
    (∃ ns, c = .rstPinReset ns ∧ sysLive s = true ∧ 1000 ≤ ns ∧ cause = 3) ∨
    (∃ w, c = .softReset w ∧ busLive s = true ∧ fieldOf w 8 8 = 0xC3 ∧ cause = 4) ∨
    (c = .watchdogReset ∧ sysLive s = true ∧ s.sys.wdrst = true ∧ s.sys.hbFresh = false ∧ cause = 5) := by
  cases c
  case rstPinReset ns =>
    obtain ⟨⟨hs, hns⟩, hcause⟩ := Option.ite_none_right_eq_some.1 h
    exact .inl ⟨ns, rfl, hs, hns, (Option.some.inj hcause).symm⟩
  case softReset w =>
    obtain ⟨⟨hs, hkey⟩, hcause⟩ := Option.ite_none_right_eq_some.1 h
    exact .inr (.inl ⟨w, rfl, hs, hkey, (Option.some.inj hcause).symm⟩)
  case watchdogReset =>
    obtain ⟨⟨hs, hwd, hhb⟩, hcause⟩ := Option.ite_none_right_eq_some.1 h
    exact .inr (.inr ⟨rfl, hs, hwd, hhb, (Option.some.inj hcause).symm⟩)
  all_goals exact absurd h nofun

/-- R71: a pulse of 1 µs or more is recognised. -/
theorem exec_rstPinReset_of_long {ns : Nat} {s : State} (hs : sysLive s = true) (hns : 1000 ≤ ns) :
    exec (.rstPinReset ns) s = .next (settled (arriveReset 3 { s with draws := s.draws + 1 })) := by
  have hlong : rstRecognised ns s.draws = true := by rw [rstRecognised, if_neg (by omega), if_pos hns]
  change execRstPinReset ns s = _
  simp only [execRstPinReset, nextDraw, hs, hlong, if_true, complete]

/-- R71: a pulse of 100 ns or less is not recognised. -/
theorem exec_rstPinReset_of_short (ns : Nat) (s : State) (hs : sysLive s = true) (hns : ns ≤ 100) :
    exec (.rstPinReset ns) s = .next (settled { s with draws := s.draws + 1 }) := by
  have hshort : rstRecognised ns s.draws = false := by rw [rstRecognised, if_pos hns]
  change execRstPinReset ns s = _
  simp only [execRstPinReset, nextDraw, hs, hshort, if_true, complete, Bool.false_eq_true, if_false]

theorem exec_softReset (w : Word) (s : State) (hs : busLive s = true) :
    exec (.softReset w) s = .next (settled (softReset w (served s))) := by
  change complete (onBus (softReset w) s) = _
  rw [onBus_of_busLive _ _ hs, complete]

/-- R124: without its key a soft reset raises event 021h. -/
theorem exec_softReset_unkeyed (w : Word) (s : State) (hs : busLive s = true) (hkey : fieldOf w 8 8 ≠ 0xC3) :
    exec (.softReset w) s = .next (settled (raise 0x21 (served s))) := by
  rw [exec_softReset w s hs, softReset, if_neg hkey]

/-- R12, R72: a keyed soft reset arrives, and SRST reads 1 while it waits. -/
theorem softReset_keyed {w : Word} (s : State) (hkey : fieldOf w 8 8 = 0xC3) :
    softReset w s = { arriveReset 4 s with
      pwr := { (arriveReset 4 s).pwr with srst := (arriveReset 4 s).pwr.heldReset.isSome } } := by
  rw [softReset, if_pos hkey]

/-- A soft reset that nothing holds is taken like any other. -/
theorem softReset_of_free {w : Word} {s : State} (hkey : fieldOf w 8 8 = 0xC3) (hfree : resetWaits s = false) :
    softReset w s = arriveReset 4 s := by
  obtain ⟨-, hheld, hsrst, -⟩ := (arriveReset_of_free 4 hfree).1
  rw [softReset_keyed s hkey, hheld, Option.isSome_none, ← hsrst]

/-- R90: the watchdog reset. -/
theorem exec_watchdogReset {s : State} (hs : sysLive s = true) (hwd : s.sys.wdrst = true)
    (hstale : s.sys.hbFresh = false) : exec .watchdogReset s = .next (settled (arriveReset 5 s)) := by
  change complete (when (sysLive s && s.sys.wdrst && !s.sys.hbFresh) (arriveReset 5) s) = _
  rw [when_of_true _ _ (by simp [hs, hwd, hstale]), complete]

/-- R72: a reset that is asked for while nothing holds it is taken at once. -/
theorem exec_of_asksReset_free {c : Instr} {cause : BitVec 3} {s : State} (h : asksReset c s = some cause)
    (hfree : resetWaits s = false) :
    ∃ u, exec c s = .next (settled u) ∧ AfterReset s u ∧ u.pwr.cause = cause ∧ u.sh.sram = s.sh.sram ∧
      u.sh.disc = s.sh.staging.isSome ∧ u.nv.ring = s.nv.ring ∧ u.port.ir = s.port.ir := by
  rcases asksReset_cases h with ⟨ns, rfl, hs, hns, rfl⟩ | ⟨w, rfl, hs, hkey, rfl⟩ | ⟨rfl, hs, hwd, hstale, rfl⟩
  · exact ⟨_, exec_rstPinReset_of_long hs hns, arriveReset_of_free (s := { s with draws := s.draws + 1 }) 3 hfree⟩
  · have hserved : resetWaits (served s) = false := hfree
    refine ⟨_, exec_softReset w s hs, ?_⟩
    rw [softReset_of_free hkey hserved]
    exact arriveReset_of_free (s := served s) 4 hserved
  · exact ⟨_, exec_watchdogReset hs hwd hstale, arriveReset_of_free 5 hfree⟩

/-- R72, R12: a reset that is asked for while an operation or a key command runs waits. -/
theorem exec_of_asksReset_waits {c : Instr} {cause : BitVec 3} {s : State} (h : asksReset c s = some cause)
    (hwaits : resetWaits s = true) :
    ∃ u, exec c s = .next (settled u) ∧ u.pwr.heldReset = some (s.pwr.heldReset.getD cause) ∧
      u.pwr.phase = s.pwr.phase ∧ u.nv.running = s.nv.running ∧ u.nv.host = none ∧ u.nv.mem = s.nv.mem ∧
      u.sh = s.sh ∧ u.fe = s.fe ∧ u.sys = s.sys ∧
      (∀ w, c = .softReset w → bitOf (busRead 0x04 u).1 7 = true) := by
  rcases asksReset_cases h with ⟨ns, rfl, hs, hns, rfl⟩ | ⟨w, rfl, hs, hkey, rfl⟩ | ⟨rfl, hs, hwd, hstale, rfl⟩
  · obtain ⟨hheld, hphase, hrunning, hhost, hmem, hsh, hfe, hsys⟩ :=
      arriveReset_of_waits (s := { s with draws := s.draws + 1 }) 3 hwaits
    exact ⟨_, exec_rstPinReset_of_long hs hns, hheld, hphase, hrunning, hhost, hmem, hsh, hfe, hsys, nofun⟩
  · obtain ⟨hheld, hphase, hrunning, hhost, hmem, hsh, hfe, hsys⟩ := arriveReset_of_waits (s := served s) 4 hwaits
    refine ⟨_, exec_softReset w s hs, ?_⟩
    rw [softReset_keyed _ hkey]
    exact ⟨hheld, hphase, hrunning, hhost, hmem, hsh, hfe, hsys, fun _ _ => busRead_sysctl_srst (congrArg Option.isSome hheld)⟩
  · obtain ⟨hheld, hphase, hrunning, hhost, hmem, hsh, hfe, hsys⟩ := arriveReset_of_waits 5 hwaits
    exact ⟨_, exec_watchdogReset hs hwd hstale, hheld, hphase, hrunning, hhost, hmem, hsh, hfe, hsys, nofun⟩

/-! ## What leaves a reset that waits as it was -/

/-- The reset that waits, what holds it, and the events due at its release are in `t` as they were in `s`. -/
@[simp] abbrev KeepsWait (s t : State) : Prop :=
  t.pwr.heldReset = s.pwr.heldReset ∧ t.pwr.releaseEvents = s.pwr.releaseEvents ∧ t.key.op = s.key.op ∧
  t.nv.running = s.nv.running

theorem KeepsWait.trans {s t u : State} (h1 : KeepsWait s t) (h2 : KeepsWait t u) : KeepsWait s u := by
  simp only [KeepsWait] at h1 h2 ⊢
  simp [h1, h2]

theorem KeepsWait.of_onlyLogs {s t : State} (h : OnlyLogs s t) : KeepsWait s t := by
  simp only [OnlyLogs] at h
  simp [h]

theorem raise_keepsWait (id : Nat) (s : State) : KeepsWait s (raise id s) := by simp

theorem foldl_keepsWait {α : Type} (xs : List α) (f : State → α → State) (h : ∀ x t, KeepsWait t (f t x)) (s : State) :
    KeepsWait s (xs.foldl f s) := by
  induction xs generalizing s with
  | nil => simp
  | cons x xs ih => exact (h x s).trans (ih (f s x))

theorem forAll_keepsWait {α : Type} (xs : List α) (f : α → State → State) (h : ∀ x t, KeepsWait t (f x t)) (s : State) :
    KeepsWait s (forAll xs f s) := foldl_keepsWait xs _ h s

@[simp] theorem when_keepsWait (c : Bool) (f : State → State) (s : State) (h : ∀ t, KeepsWait t (f t)) :
    KeepsWait s (when c f s) := by
  unfold when
  split
  · exact h s
  · simp

/-! ### A deferred change -/

theorem setChctl_keepsWait (k : Chan) (v : Word) (s : State) : KeepsWait s (setChctl k v s) := by
  simp only [setChctl]; (repeat' split) <;> simp [setShortRange]

theorem deferredChctl_keepsWait (k : Chan) (v : Word) (s : State) : KeepsWait s (deferredChctl k v s) := by
  unfold deferredChctl
  split
  · exact setChctl_keepsWait k v s
  · simp

theorem deferredExcctl_keepsWait (v : Word) (s : State) : KeepsWait s (deferredExcctl v s) := by
  unfold deferredExcctl; split <;> simp [setExcctl]

theorem noReadingCheck_keepsWait (k : Chan) (s : State) : KeepsWait s (noReadingCheck k s) := by
  simp only [noReadingCheck]; split <;> simp

theorem setTxen_keepsWait (v : Word) (s : State) : KeepsWait s (setTxen v s) :=
  KeepsWait.trans (t := { s with cal := { s.cal with txen := bitOf v 11, ext := if bitOf v 11 then s.cal.ext else none } })
    (by simp) (forAll_keepsWait _ _ noReadingCheck_keepsWait _)

theorem kernEnable_keepsWait (k : Chan) (b : Bool) (s : State) : KeepsWait s (kernEnable k b s) := by
  unfold kernEnable; dsimp only; (repeat' split) <;> simp [dropSolve]

theorem kokCheck_keepsWait (k : Chan) (s : State) : KeepsWait s (kokCheck k s) := by
  simp only [kokCheck]; split <;> simp

theorem setKernctl_keepsWait (v : Word) (s : State) : KeepsWait s (setKernctl v s) := by
  refine KeepsWait.trans ?_ (forAll_keepsWait _ _ kokCheck_keepsWait _)
  have hen : KeepsWait s (setKernEn (fun k => isLegal k s) v s) :=
    forAll_keepsWait _ _ (fun k t => when_keepsWait _ _ t (kernEnable_keepsWait k _)) s
  exact hen

theorem setGlctl_keepsWait (v : Word) (s : State) : KeepsWait s (setGlctl v s) := by
  unfold setGlctl; dsimp only; (repeat' split) <;> simp [enterSearch, linkOff]

theorem restartLink_keepsWait (s : State) : KeepsWait s (restartLink s) := by
  unfold restartLink; dsimp only; (repeat' split) <;> simp [enterSearch]

theorem applyGlctl_keepsWait (v : Word) (s : State) : KeepsWait s (applyGlctl v s) :=
  (setGlctl_keepsWait v s).trans (when_keepsWait _ _ _ restartLink_keepsWait)

theorem applyDeferred_keepsWait (d : Deferred) (s : State) : KeepsWait s (applyDeferred d s) := by
  unfold applyDeferred
  split
  · simp
  · split
    case h_1 => simp [setSysctl]
    case h_2 => exact deferredChctl_keepsWait 0 _ s
    case h_3 => exact deferredChctl_keepsWait 1 _ s
    case h_4 => exact deferredChctl_keepsWait 2 _ s
    case h_5 => exact deferredChctl_keepsWait 3 _ s
    case h_6 => exact deferredExcctl_keepsWait _ s
    case h_7 => simp [setRaw, setRawOf]
    case h_8 => exact setTxen_keepsWait _ s
    case h_9 => exact setKernctl_keepsWait _ s
    case h_10 => exact applyGlctl_keepsWait _ s
    case h_11 => simp [setFkctl]
    case h_12 => unfold setFkresp; split <;> simp
    case h_13 => unfold setNvprot; dsimp only; split <;> simp [setBp]
    case h_14 => simp

/-- R44: the increment has committed, and the changes that waited for it are made. -/
theorem incrementDone_keepsWait (s : State) : KeepsWait s (incrementDone s) := by
  unfold incrementDone
  exact KeepsWait.trans (by simp) (foldl_keepsWait _ _ applyDeferred_keepsWait _)

/-! ### The end of an operation -/

theorem sealJobDone_keepsWait (job : SealJob) (s : State) : KeepsWait s (sealJobDone job s) := by
  unfold sealJobDone
  split
  case h_1 => exact incrementDone_keepsWait s
  case h_2 => split <;> simp
  case h_3 => split <;> simp
  case h_4 => simp
  case h_5 => simp

@[simp] theorem program_keepsWait (a : Nat) (bs : List Byte) (s : State) : KeepsWait s (program a bs s) := by
  simp [program]

theorem programWords_keepsWait (p : Nat) (ws : List (Nat × Word)) (s : State) : KeepsWait s (programWords p ws s) := by
  induction ws generalizing s with
  | nil => simp [programWords]
  | cons x rest ih => exact (program_keepsWait _ _ s).trans (ih _)

theorem writeRing_keepsWait (r : Fin 64) (v : BitVec 64) (s : State) : KeepsWait s (writeRing r v s) := by
  unfold writeRing; split <;> simp

@[simp] theorem writeEntry_keepsWait (n : Nat) (e : Entry) (s : State) : KeepsWait s (writeEntry n e s) := by
  simp [writeEntry]

@[simp] theorem advancePosition_keepsWait (n : Nat) (s : State) : KeepsWait s (advancePosition n s) := by
  unfold advancePosition; dsimp only; split <;> simp

theorem writeMarker_keepsWait (code : Byte) (s : State) : KeepsWait s (writeMarker code s) := by
  simp [writeMarker]

theorem afterEntry_keepsWait (s : State) (e : Entry) : KeepsWait s (afterEntry s e) := by
  unfold afterEntry portEntry; (repeat' split) <;> simp [requestRing]

theorem writeEntries_keepsWait (s : State) (es : List Entry) : KeepsWait s (writeEntries s es) :=
  foldl_keepsWait _ _ (fun e t => KeepsWait.trans (by simp) (afterEntry_keepsWait _ e)) s

theorem logNow_keepsWait (code : Byte) (data : W32) (s : State) : KeepsWait s (logNow code data s) :=
  .of_onlyLogs (logNow_onlyLogs code data s)

theorem shedStores_keepsWait (s : State) : KeepsWait s (shedStores s) := .of_onlyLogs (shedStores_onlyLogs s)

theorem refreshDone_keepsWait (p : Nat) (s : State) : KeepsWait s (refreshDone p s) := by
  unfold refreshDone; split <;> simp

/-- The state in which the operation has ended and nothing has come of it yet. -/
def opEnded (s : State) : State := { s with nv := { s.nv with running := none } }

/-- R360: what the end of an operation other than a shadow store brings about leaves a reset that waits as it was. -/
theorem finishOp_keepsWait {op : ArrayOp} {s : State} (hop : ∀ cmd bankB image n, op ≠ .store cmd bankB image n) :
    KeepsWait (opEnded s) (finishOp op s) := by
  cases op with
  | hostPage p ws =>
    have hpage : KeepsWait (opEnded s) (raise 0x360 (programWords p ws (opEnded s))) :=
      (programWords_keepsWait p ws _).trans (raise_keepsWait _ _)
    unfold finishOp
    dsimp only
    split
    · exact hpage.trans (logNow_keepsWait _ _ _)
    · exact hpage
  | hostRing r v => exact (writeRing_keepsWait r v _).trans (raise_keepsWait _ _)
  | legalPage p bs => exact (program_keepsWait _ bs _).trans (when_keepsWait _ _ _ shedStores_keepsWait)
  | sealRing r v job => exact (writeRing_keepsWait r v _).trans (sealJobDone_keepsWait job _)
  | imprint first n => exact writeEntries_keepsWait _ _
  | marker c => exact writeMarker_keepsWait c _
  | refresh p => exact refreshDone_keepsWait p _
  | store cmd bankB image n => exact absurd rfl (hop cmd bankB image n)

/-- R396: while a reset waits, the events of the end of an operation are noted for its release. -/
theorem reportAtRelease_of_heldReset (op : ArrayOp) {s : State} {cause : BitVec 3} (hheld : s.pwr.heldReset = some cause) :
    reportAtRelease op s =
      { s with pwr := { s.pwr with releaseEvents := s.pwr.releaseEvents ++ completionEvents op s } } := by
  rw [reportAtRelease, hheld, Option.isSome_some, if_pos rfl]

theorem phase_ne_powerFail_of_sysLive {s : State} (hs : sysLive s = true) : s.pwr.phase ≠ .powerFail := by
  intro h; simp [sysLive, h] at hs

/-- R360: an operation other than a shadow store ends while SYS runs. -/
theorem operationDone_eq {op : ArrayOp} {s : State} (hs : sysLive s = true) (hop : s.nv.running = some op)
    (hstore : ∀ cmd bankB image n, op ≠ .store cmd bankB image n) :
    operationDone s = finishOp op (reportAtRelease op s) := by
  unfold operationDone
  split
  case h_1 hnone => simp [hop] at hnone
  case h_2 hrun => exact absurd (Option.some.inj (hop.symm.trans hrun)) (hstore _ _ _ _)
  case h_3 op' _ hrun =>
    obtain rfl : op = op' := Option.some.inj (hop.symm.trans hrun)
    dsimp only
    rw [if_neg (phase_ne_powerFail_of_sysLive hs)]

theorem not_store_of_storeRuns {op : ArrayOp} {s : State} (hop : s.nv.running = some op) (hstore : storeRuns s = false) :
    ∀ cmd bankB image n, op ≠ .store cmd bankB image n := by
  rintro cmd bankB image n rfl
  simp [storeRuns, hop] at hstore

/-- R72, R396: a reset that has waited behind an operation is taken at its end. -/
theorem arrayOperationDone_takes_reset (op : ArrayOp) (cause : BitVec 3) (s : State) (hs : sysLive s = true)
    (hop : s.nv.running = some op) (hstore : storeRuns s = false) (hheld : s.pwr.heldReset = some cause)
    (hkey : s.key.op = none) :
    ∃ u, exec .arrayOperationDone s = .next (settled u) ∧ (settled u).pwr.phase = .reset ∧
      (settled u).pwr.cause = cause ∧ (settled u).pwr.heldReset = none ∧ (settled u).nv.running = none ∧
      ∀ id ∈ completionEvents op s, id ∈ (settled u).pwr.releaseEvents := by
  have hnot := not_store_of_storeRuns hop hstore
  have hdone := operationDone_eq hs hop hnot
  obtain ⟨hheld', hevents, hkey', hrunning⟩ : KeepsWait (opEnded (reportAtRelease op s)) (operationDone s) :=
    hdone ▸ finishOp_keepsWait hnot
  rw [reportAtRelease_of_heldReset op hheld] at hheld' hevents hkey' hrunning
  have hfree : resetWaits (operationDone s) = false := by
    rw [resetWaits, hrunning, hkey']; simp [opEnded, hkey]
  obtain ⟨hphase, hcause, hnone, hreleased, hidle, -⟩ := settled_takes_reset (hheld'.trans hheld) hfree
  refine ⟨_, rfl, hphase, hcause, hnone, hidle, fun id hid => ?_⟩
  rw [hreleased, hevents]
  exact List.mem_append_right _ hid

/-- R339: the write of a slot leaves what waits, but that the key command has ended. -/
theorem writeSlot_frame (slot : Nat) (ws : Option (List Word)) (s : State) :
    (writeSlot slot ws s).pwr = s.pwr ∧ (writeSlot slot ws s).nv = s.nv ∧ (writeSlot slot ws s).key.op = none ∧
    (writeSlot slot ws s).key.pres =
      (if s.key.clear = true ∧ ws.isSome = true then s.key.pres else (setSlot slot ws s.key).pres) := by
  simp only [writeSlot, raise_frame, Bool.and_eq_true, true_and]
  split <;> rfl

/-- R339, log entry 39: a reset that has waited behind a key command is taken as the slot is written. -/
theorem keySlotWritten_takes_reset (slot : BitVec 3) (ws : Option (List Word)) (cause : BitVec 3) (s : State)
    (hs : sysLive s = true) (hop : s.key.op = some (slot, ws)) (hfree : changeFree s = true)
    (hidle : s.nv.running = none) (hheld : s.pwr.heldReset = some cause) :
    ∃ u, exec .keySlotWritten s = .next (settled u) ∧ (settled u).pwr.phase = .reset ∧
      (settled u).pwr.cause = cause ∧ (settled u).key.op = none ∧
      (settled u).key.pres = (if s.key.clear = true ∧ ws.isSome = true then s.key.pres
        else (setSlot slot.toNat ws s.key).pres) := by
  have hwritten : slotWritten s = writeSlot slot.toNat ws s := by
    rw [slotWritten, hop]; exact if_pos hfree
  obtain ⟨hpwr, hnv, hkey, hpres⟩ := writeSlot_frame slot.toNat ws s
  have hnothing : resetWaits (writeSlot slot.toNat ws s) = false := by simp [resetWaits, hnv, hkey, hidle]
  obtain ⟨hphase, hcause, -, -, -, hnone, hkept⟩ :=
    settled_takes_reset (hpwr ▸ hheld : (writeSlot slot.toNat ws s).pwr.heldReset = some cause) hnothing
  refine ⟨writeSlot slot.toNat ws s, ?_, hphase, hcause, hnone, hkept.trans hpres⟩
  change complete (when (sysLive s) slotWritten s) = _
  rw [when_of_true _ _ hs, complete, hwritten]

/-! ## The statement -/

/-- Settles O14, reset by reset: one that arrives is taken or waits (`arriveReset_of_free`, `arriveReset_of_waits`), and the end
of what it waits for leaves it as it was (`KeepsWait`), so that the end of the command takes it (`settled_takes_reset`). -/
theorem resetTakesEffectOrWaits : Obligations.ResetTakesEffectOrWaits := by
  unfold Obligations.ResetTakesEffectOrWaits
  exact ⟨fun _ _ _ h => ⟨exec_of_asksReset_free h, exec_of_asksReset_waits h⟩, arrayOperationDone_takes_reset,
    keySlotWritten_takes_reset, exec_rstPinReset_of_short, exec_softReset_unkeyed⟩

end Sys2Proof.Machine
end

section
/-! PROOFS. The selection and the address of the window (O23): what discarding a staged element leaves, what a write of WINSEL,
WINADL or WINADH makes of the window, and how an access to WINDAT moves the address on. -/

namespace Sys2Proof.Machine

theorem sysLive_of_busLive {s : State} (hs : busLive s = true) : sysLive s = true := by
  simp only [busLive, Bool.and_eq_true] at hs
  exact hs.1

/-! ## A staged element that is discarded (R119) -/

/-- R119: the window and the event unit alone differ in `u`, and the element that was staged in `s`, if any, is discarded with
PART and event 026h. -/
structure StageDiscarded (s u : State) : Prop where
  frame : u = { s with bus := u.bus, ev := u.ev }
  stage : u.bus.stage = none
  quiet : s.bus.stage = none → u.ev = s.ev ∧ u.bus.part = s.bus.part
  shown : s.bus.stage ≠ none → u.bus.part = true ∧ isSticky 0x26 u = true

@[simp] theorem discardStage_bus (s : State) :
    (discardStage s).bus = { s.bus with stage := none, part := s.bus.part || s.bus.stage.isSome } := by
  unfold discardStage
  split
  next h => rw [h, Option.isSome_none, Bool.or_false, ← h]
  next g h => simp [h]

theorem discardStage_stageDiscarded {s : State} (hs : sysLive s = true) : StageDiscarded s (discardStage s) := by
  cases h : s.bus.stage
  case none =>
    rw [discardStage, h]
    exact ⟨rfl, h, fun _ => ⟨rfl, rfl⟩, fun hne => absurd h hne⟩
  case some g =>
    have heq : discardStage s = raise 0x26 { s with bus := { s.bus with stage := none, part := true } } := by
      rw [discardStage, h]
    refine ⟨?frame, by simp, fun hnone => by simp [h] at hnone, fun _ => ⟨by simp [h], ?sticky⟩⟩
    case frame => rw [heq, raise, if_pos (by exact hs)]
    case sticky => rw [heq]; exact raise_sticky_self _ _ (by decide) hs

/-- A write of the other fields of the window leaves the element discarded. -/
theorem StageDiscarded.setBus {s t : State} (h : StageDiscarded s t) (b : Bus) (hstage : b.stage = t.bus.stage)
    (hpart : b.part = t.bus.part) : StageDiscarded s { t with bus := b } where
  frame := congrArg (fun u : State => { u with bus := b, ev := t.ev }) h.frame
  stage := hstage.trans h.stage
  quiet hs := ⟨(h.quiet hs).1, hpart.trans (h.quiet hs).2⟩
  shown hs := ⟨hpart.trans (h.shown hs).1, (h.shown hs).2⟩

theorem StageDiscarded.of_served {s u : State} (h : StageDiscarded (served s) u) : StageDiscarded s u where
  frame := h.frame
  stage := h.stage
  quiet := h.quiet
  shown := h.shown

/-! ## WINSEL, WINADL and WINADH (R115) -/

theorem writeWinsel_stageDiscarded (v : Word) {s : State} (hs : sysLive s = true) :
    StageDiscarded s (writeWinsel v s) :=
  (discardStage_stageDiscarded hs).setBus _ rfl rfl

theorem writeWinadr_stageDiscarded (high : Bool) (v : Word) {s : State} (hs : sysLive s = true) :
    StageDiscarded s (writeWinadr high v s) :=
  (discardStage_stageDiscarded hs).setBus _ rfl rfl

/-- R115: what a write of WINSEL selects. -/
theorem writeWinsel_fields (v : Word) (s : State) :
    (writeWinsel v s).bus.addr = 0 ∧ (writeWinsel v s).bus.snap = none ∧ (writeWinsel v s).bus.hold = bitOf v 8 ∧
    (writeWinsel v s).bus.sub.toNat = fieldOf v 4 4 ∧ (writeWinsel v s).bus.array.toNat = fieldOf v 0 4 := by
  simp [writeWinsel, fieldOf]

/-- R115: the selection and the snapshot stay. -/
theorem writeWinadr_frame (high : Bool) (v : Word) (s : State) :
    (writeWinadr high v s).bus.snap = s.bus.snap ∧ (writeWinadr high v s).bus.array = s.bus.array ∧
    (writeWinadr high v s).bus.sub = s.bus.sub ∧ (writeWinadr high v s).bus.hold = s.bus.hold := by
  simp [writeWinadr]

theorem writeWinadr_low (v : Word) (s : State) :
    (writeWinadr false v s).bus.addr = (s.bus.addr >>> 16).setWidth 8 ++ v := by simp [writeWinadr]

theorem writeWinadr_high (v : Word) (s : State) :
    (writeWinadr true v s).bus.addr = v.setWidth 8 ++ s.bus.addr.setWidth 16 := by simp [writeWinadr]

/-- Replacing the low bits leaves the high ones. -/
theorem append_shift_high {n m : Nat} (x : BitVec (n + m)) (y : BitVec m) :
    ((x >>> m).setWidth n ++ y) >>> m = x >>> m := by
  ext i hi
  have hhigh : ¬ m + i < m := by omega
  cases hx : x.getLsbD (m + i)
  case false => simp [BitVec.getLsbD_append, hhigh, hx]
  case true =>
    have hlt : m + i < n + m := BitVec.lt_of_getLsbD hx
    have hin : i < n := by omega
    simp [BitVec.getLsbD_append, hhigh, hx, hin]

theorem exec_windowSelect (v : Word) (s : State) (hs : busLive s = true) :
    exec (.windowSelect v) s = .next (settled (writeWinsel v (served s))) := by
  change complete (onBus (writeWinsel v) s) = _
  rw [onBus_of_busLive _ _ hs, complete]

theorem exec_windowAddressWrite (high : Bool) (v : Word) (s : State) (hs : busLive s = true) :
    exec (.windowAddressWrite high v) s = .next (settled (writeWinadr high v (served s))) := by
  change complete (onBus (writeWinadr high v) s) = _
  rw [onBus_of_busLive _ _ hs, complete]

/-! ## Accesses to WINDAT (R116) -/

/-- The window address and HOLD are as they were. -/
@[simp] abbrev KeepsAddr (s t : State) : Prop := t.bus.addr = s.bus.addr ∧ t.bus.hold = s.bus.hold

theorem KeepsAddr.of_bus {s t : State} (h : t.bus = s.bus) : KeepsAddr s t := by simp [h]

theorem KeepsAddr.trans {s t u : State} (h1 : KeepsAddr s t) (h2 : KeepsAddr t u) : KeepsAddr s u :=
  ⟨h2.1.trans h1.1, h2.2.trans h1.2⟩

/-- R116: the address moves on from where the access found it. -/
theorem KeepsAddr.advanceWindow {s t : State} (h : KeepsAddr s t) : (advanceWindow t).bus.addr = nextAddr s := by
  obtain ⟨haddr, hhold⟩ := h
  simp only [Machine.advanceWindow, nextAddr, haddr, hhold]

theorem when_raise_bus (c : Bool) (id : Nat) (s : State) : (when c (raise id) s).bus = s.bus := by
  unfold when; split <;> simp

theorem discardStage_keepsAddr (s : State) : KeepsAddr s (discardStage s) := by simp

/-! ### Reads -/

@[simp] theorem parityRead_bus (i : Nat) (s : State) : (parityRead i s).bus = s.bus := by
  rw [parityRead_eq_detect]; simp [parityDrawn]

theorem nvReadEffect_keepsAddr (w : Nat) (s : State) : KeepsAddr s (nvReadEffect w s) := by
  unfold nvReadEffect; split <;> simp [setBadchk]

theorem imprintReadEffect_keepsAddr (a : Nat) (s : State) : KeepsAddr s (imprintReadEffect a s) := by
  unfold imprintReadEffect when; (repeat' split) <;> simp [setBadchk]

theorem readEffect_keepsAddr (a : Nat) (s : State) : KeepsAddr s (readEffect a s) := by
  unfold readEffect
  split
  case h_1 => exact .of_bus (parityRead_bus _ s)
  case h_2 => exact .of_bus (parityRead_bus _ s)
  case h_3 => exact .of_bus (parityRead_bus _ s)
  case h_4 => exact nvReadEffect_keepsAddr a s
  case h_5 => exact imprintReadEffect_keepsAddr a s
  case h_6 => exact .of_bus rfl

theorem outOfRange_keepsAddr (s : State) : KeepsAddr s (outOfRange s) := by simp [outOfRange]

theorem readElement_keepsAddr (s : State) : KeepsAddr s (readElement s).2 := by
  unfold readElement
  dsimp only
  split
  case isTrue => exact readEffect_keepsAddr _ s
  case isFalse =>
    split
    case isTrue => exact readEffect_keepsAddr _ s
    case isFalse =>
      split
      case h_1 => exact .of_bus rfl
      case h_2 => exact readEffect_keepsAddr _ s

theorem windatRead_addr (s : State) : (windatRead s).2.bus.addr = nextAddr s := by
  unfold windatRead
  refine KeepsAddr.advanceWindow (KeepsAddr.trans ?_ (discardStage_keepsAddr _))
  dsimp only
  split
  case isTrue => exact readElement_keepsAddr _
  case isFalse => exact outOfRange_keepsAddr _

/-! ### Writes -/

theorem putSingle_bus (a : Nat) (v : Word) (s : State) : (putSingle a v s).bus = s.bus := by
  unfold putSingle
  split
  case h_4 => unfold loadBuffer; exact when_raise_bus _ _ _
  case h_5 => unfold writeShadow; dsimp only; split <;> rfl
  all_goals rfl

theorem putElement_bus (i : Nat) (ws : List Word) (s : State) : (putElement i ws s).bus = s.bus := by
  unfold putElement
  dsimp only
  split <;> rfl

theorem stageWord_keepsAddr (a : Nat) (v : Word) (s : State) : KeepsAddr s (stageWord a v s) := by
  unfold stageWord
  dsimp only
  split
  case isTrue => rw [KeepsAddr, putElement_bus]; exact ⟨rfl, rfl⟩
  case isFalse => exact ⟨rfl, rfl⟩

theorem leaveStage_keepsAddr (s : State) : KeepsAddr s (leaveStage s) := by
  unfold leaveStage
  split
  case h_1 => split <;> simp
  case h_2 => exact .of_bus rfl

theorem refuseWindow_keepsAddr (ev : Nat) (s : State) : KeepsAddr s (refuseWindow ev s) := by simp [refuseWindow]

/-- R116: refused or taken, a write moves the address on. -/
theorem windatWrite_addr (v : Word) (s : State) : (windatWrite v s).bus.addr = nextAddr s := by
  unfold windatWrite
  refine KeepsAddr.advanceWindow (KeepsAddr.trans (leaveStage_keepsAddr s) ?_)
  split
  case isTrue => exact outOfRange_keepsAddr _
  case isFalse =>
    split
    next ev _ => exact (refuseWindow_keepsAddr ev _).trans (.of_bus (when_raise_bus _ _ _))
    next =>
      split
      case isTrue => exact .of_bus (putSingle_bus _ _ _)
      case isFalse => exact stageWord_keepsAddr _ _ _

/-! ### The commands that access WINDAT -/

theorem exec_windatRead (s : State) (hs : busLive s = true) :
    exec .windatRead s = .next (settled (answer (windatRead (served s)))) := by
  change complete (onBus (fun t => answer (windatRead t)) s) = _
  rw [onBus_of_busLive _ _ hs, complete]

theorem exec_registerWrite_windat (v : Word) (s : State) (hs : busLive s = true) :
    exec (.registerWrite 0x0B v) s = .next (settled (windatWrite v (served s))) := by
  have hmark : markOf 0x0B v s = .none := by simp [markOf]
  have hcount : when (s.pwr.vddio && decide ((0x0B : BitVec 6) = 0x32)) (countDiscarded v) s = s := by simp [when]
  have haccess : registerAccess 0x0B v s = windatWrite v (served s) := by
    rw [registerAccess, hcount, onBus_of_busLive _ _ hs]
    rfl
  change completeMarked (markOf 0x0B v s) (registerAccess 0x0B v s) = _
  rw [hmark, haccess]
  rfl

/-- A row whose array WINSEL selects writes WINDAT. -/
theorem arrayWrite_of_selects {arrays : List (BitVec 4)} (v : Word) {s : State} (hs : busLive s = true)
    (hsel : s.bus.array ∈ arrays) : arrayWrite arrays v s = windatWrite v (served s) := by
  rw [arrayWrite, when_of_true _ _ (by simpa [selects] using hsel), onBus_of_busLive _ _ hs]

theorem exec_of_isRowOf {c : Instr} {v : Word} {s : State} (hs : busLive s = true) (hrow : isRowOf c v s) :
    exec c s = .next (settled (windatWrite v (served s))) := by
  have hwrites : ∀ arrays : List (BitVec 4), s.bus.array ∈ arrays →
      complete (arrayWrite arrays v s) = .next (settled (windatWrite v (served s))) := fun arrays hsel => by
    rw [arrayWrite_of_selects v hs hsel, complete]
  rcases hrow with ⟨rfl, h⟩ | ⟨rfl, h⟩ | ⟨rfl, h⟩ | ⟨rfl, h⟩ | ⟨rfl, h⟩ | ⟨rfl, h⟩ | ⟨rfl, h⟩ | ⟨rfl, h⟩ |
    ⟨rfl, h⟩ | ⟨rfl, h⟩ | ⟨rfl, h⟩
  rotate_right 1
  · change complete (when (neverWritable s || !winInRange s) (onBus (windatWrite v)) s) = _
    rw [when_of_true _ _ (by simpa using h), onBus_of_busLive _ _ hs, complete]
  all_goals exact hwrites _ (by simp only [List.mem_cons, List.not_mem_nil, or_false, h])

/-! ## The statement -/

/-- Settles O23, register by register: both writes of R115 discard what is staged (`discardStage_stageDiscarded`) and set their
fields; every access to WINDAT ends in `advanceWindow`, and nothing before it has moved the address (`KeepsAddr`). -/
theorem windowSelection : Obligations.WindowSelection := by
  unfold Obligations.WindowSelection
  refine ⟨?registers, windatRead_addr, windatWrite_addr, ?accesses⟩
  case registers =>
    intro c v s hs hc
    have hsys : sysLive (served s) = true := sysLive_of_busLive hs
    rcases hc with rfl | rfl | rfl
    · obtain ⟨hframe, hstage, hquiet, hshown⟩ := (writeWinsel_stageDiscarded v hsys).of_served
      exact ⟨_, exec_windowSelect v s hs, hframe, hstage, hquiet, hshown, fun _ => writeWinsel_fields v (served s),
        nofun, nofun⟩
    · obtain ⟨hframe, hstage, hquiet, hshown⟩ := (writeWinadr_stageDiscarded false v hsys).of_served
      refine ⟨_, exec_windowAddressWrite false v s hs, hframe, hstage, hquiet, hshown, nofun, fun _ => ?_, nofun⟩
      rw [writeWinadr_low]
      exact ⟨append_low _ v, append_shift_high _ v, writeWinadr_frame false v (served s)⟩
    · obtain ⟨hframe, hstage, hquiet, hshown⟩ := (writeWinadr_stageDiscarded true v hsys).of_served
      refine ⟨_, exec_windowAddressWrite true v s hs, hframe, hstage, hquiet, hshown, nofun, nofun, fun _ => ?_⟩
      rw [writeWinadr_high]
      exact ⟨append_high _ _, append_low _ _, writeWinadr_frame true v (served s)⟩
  case accesses =>
    intro c v s hs hc
    rcases hc with rfl | rfl | hrow
    · exact ⟨_, exec_windatRead s hs, windatRead_addr (served s)⟩
    · exact ⟨_, exec_registerWrite_windat v s hs, windatWrite_addr v (served s)⟩
    · exact ⟨_, exec_of_isRowOf hs hrow, windatWrite_addr v (served s)⟩

end Sys2Proof.Machine
end

section
/-! PROOFS. The reads of SMPDAT and of GRPDLY (O42): what each position of a read answers and changes; the parity check of the
FIFO's memory and event 0D6h change the event unit only. -/

namespace Sys2Proof.Machine

/-! ## A parity read and an event at each evaluation, in the event unit -/

/-- R139: a parity read changes the event unit, and uses a free value with the crystal stopped. -/
theorem parityRead_eq_of_ev (i : Nat) (s : State) :
    parityRead i s = { s with
      ev := (parityRead i s).ev, draws := if s.sys.xrun then s.draws else s.draws + 1 } := by
  rw [parityRead_eq_detect, detect_eq_of_ev]; rfl

/-- R139: the detector of a parity memory holds what the read has found. -/
theorem parityRead_held_self (i : Nat) (s : State) (hi : parityEvent i < 1024) :
    bitOf (parityRead i s).ev.held (parityEvent i) = parityFound i s := by
  rw [parityRead_eq_detect, detect_held, bitOf_setBit_self _ _ _ hi]

/-- R139: a parity error that begins as the memory is read raises its event. -/
theorem parityRead_sticky_of_begins (i : Nat) (s : State) (hi : parityEvent i < 1024) (hs : sysLive s = true)
    (hbad : parityFound i s = true) (hheld : bitOf s.ev.held (parityEvent i) = false) :
    isSticky (parityEvent i) (parityRead i s) = true := by
  rw [parityRead_eq_detect, hbad]
  exact detect_sticky_of_begins _ (parityDrawn s) hi hs hheld

/-- R135, R149: without a condition and without an injection a detector clears what it holds, and nothing else changes. -/
theorem detect_ev_of_quiet (id : Nat) (s : State) (hact : s.ev.act = false) :
    (detect id false s).ev = { s.ev with held := setBit s.ev.held id false } := by
  have hquiet : occursNow id false s = false := by simp [occursNow, injected, forced, hact]
  simp [detect, hquiet, noteEvaluation, hact]

theorem parityRead_ev_of_quiet (i : Nat) (s : State) (hgood : parityFound i s = false) (hact : s.ev.act = false) :
    (parityRead i s).ev = { s.ev with held := setBit s.ev.held (parityEvent i) false } := by
  rw [parityRead_eq_detect, hgood]
  exact detect_ev_of_quiet _ (parityDrawn s) hact

theorem edge_eq_of_ev (id : Nat) (fires : Bool) (s : State) :
    edge id fires s = { s with ev := (edge id fires s).ev } := by
  simp only [edge, raise]; (repeat' split) <;> rfl

/-- R135: a comparison that holds raises its event at each evaluation. -/
theorem edge_sticky_of_fires (id : Nat) (s : State) (hid : id < 1024) (hs : sysLive s = true) :
    isSticky id (edge id true s) = true := by
  have hsticky : (edge id true s).ev.sticky = (raise id s).ev.sticky := by simp [edge, shows]
  rw [isSticky, hsticky]
  exact raise_sticky_self id s hid hs

/-! ## SMPDAT (R211) -/

/-- The state in which SMPDAT has taken the oldest record, its parity not yet checked. -/
def recordTaken (r : Record) (rest : List Record) (s : State) : State :=
  { s with fm := { s.fm with fifo := rest, snap := some r, pos := 1 } }

theorem readSmpdat_of_record {r : Record} {rest : List Record} {s : State} (hpos : s.fm.pos = 0)
    (hfifo : s.fm.fifo = r :: rest) (hsink : s.fm.sink = false) :
    readSmpdat s = (lowWord r.value, parityRead 12 (recordTaken r rest s)) := by
  rw [readSmpdat, if_pos hpos, hfifo]
  simp only [hsink, if_neg Bool.false_ne_true, recordTaken]

theorem readSmpdat_of_nothing {s : State} (hpos : s.fm.pos = 0) (hnone : s.fm.fifo = [] ∨ s.fm.sink = true) :
    readSmpdat s = (0, edge (fmB 0 6) true s) := by
  rw [readSmpdat, if_pos hpos]
  split
  case h_1 r rest hfifo => rw [if_pos (hnone.resolve_left (by simp [hfifo]))]
  case h_2 => rfl

theorem readSmpdat_of_high {r : Record} {s : State} (hpos : s.fm.pos = 1) (hsnap : s.fm.snap = some r) :
    readSmpdat s = (highWord r.value, { s with fm := { s.fm with pos := 2 } }) := by
  simp [readSmpdat, hpos, hsnap]

theorem readSmpdat_of_tag {r : Record} {s : State} (hpos : s.fm.pos = 2) (hsnap : s.fm.snap = some r) :
    readSmpdat s = (r.tag, { s with fm := { s.fm with pos := 0 } }) := by
  simp [readSmpdat, hpos, hsnap]

theorem exec_smpdatRead (s : State) (hs : busLive s = true) :
    exec .smpdatRead s = .next (settled (answer (readSmpdat (served s)))) := by
  change complete (onBus (fun t => answer (readSmpdat t)) s) = _
  rw [onBus_of_busLive _ _ hs, complete]

/-- What the first position of SMPDAT answers with, and what it leaves. -/
def recordRead (r : Record) (rest : List Record) (s : State) : State :=
  answer (lowWord r.value, parityRead 12 (recordTaken r rest s))

theorem exec_smpdatRead_of_record {r : Record} {rest : List Record} {s : State} (hs : busLive s = true)
    (hpos : s.fm.pos = 0) (hfifo : s.fm.fifo = r :: rest) (hsink : s.fm.sink = false) :
    exec .smpdatRead s = .next (settled (recordRead r rest (served s))) := by
  rw [exec_smpdatRead s hs, readSmpdat_of_record (s := served s) hpos hfifo hsink, recordRead]

theorem recordRead_eq_of_ev (r : Record) (rest : List Record) (s : State) :
    recordRead r rest s = { s with
      bus := { s.bus with driven := true, data := r.value.setWidth 16 }
      fm := { s.fm with fifo := rest, snap := some r, pos := 1 }, ev := (recordRead r rest s).ev
      draws := if s.sys.xrun then s.draws else s.draws + 1 } := by
  rw [recordRead, parityRead_eq_of_ev]; rfl

theorem exec_smpdatRead_of_nothing {s : State} (hs : busLive s = true) (hpos : s.fm.pos = 0)
    (hnone : s.fm.fifo = [] ∨ s.fm.sink = true) :
    exec .smpdatRead s = .next (settled (answer (0, edge (fmB 0 6) true (served s)))) := by
  rw [exec_smpdatRead s hs, readSmpdat_of_nothing (s := served s) hpos hnone]

/-! ## FLUSH and SMPCTL (R211) -/

/-- A field of a word does not see bits set outside it. -/
theorem fieldOf_or_of_fieldOf_eq_zero (v m : Word) (lo n : Nat) (h : fieldOf m lo n = 0) :
    fieldOf (v ||| m) lo n = fieldOf v lo n := by
  simp only [fieldOf, BitVec.toNat_or, Nat.or_div_two_pow, Nat.or_mod_two_pow] at h ⊢
  rw [h, Nat.or_zero]

/-- R211, R212: SMPCTL written with FLUSH: the fields that it sets, and an empty FIFO. -/
theorem writeSmpctl_flush (w : Word) (s : State) :
    writeSmpctl (w ||| 0x8000) s = { s with fm := { s.fm with
      fifo := [], snap := none, pos := 0, sink := isNode s && bitOf w 14, wm := BitVec.ofNat 6 (fieldOf w 8 6)
      chen := BitVec.ofNat 4 (fieldOf w 4 4), tapen := BitVec.ofNat 4 (fieldOf w 0 4) } } := by
  have hflush : bitOf (w ||| 0x8000) 15 = true := by rw [bitOf_or]; exact Bool.or_true _
  have hsink : bitOf (w ||| 0x8000) 14 = bitOf w 14 := by rw [bitOf_or]; exact Bool.or_false _
  have hwm : fieldOf (w ||| 0x8000) 8 6 = fieldOf w 8 6 := fieldOf_or_of_fieldOf_eq_zero w _ 8 6 (by decide)
  have hchen : fieldOf (w ||| 0x8000) 4 4 = fieldOf w 4 4 := fieldOf_or_of_fieldOf_eq_zero w _ 4 4 (by decide)
  have htapen : fieldOf (w ||| 0x8000) 0 4 = fieldOf w 0 4 := fieldOf_or_of_fieldOf_eq_zero w _ 0 4 (by decide)
  rw [writeSmpctl, when_of_true _ _ hflush, flushFifo, hsink, hwm, hchen, htapen]

theorem exec_fifoFlush (w : Word) (s : State) (hs : busLive s = true) :
    exec (.fifoFlush w) s = .next (settled (writeSmpctl (w ||| 0x8000) (served s))) := by
  change complete (onBus (writeSmpctl (w ||| 0x8000)) s) = _
  rw [onBus_of_busLive _ _ hs, complete]

/-! ## GRPDLY (R237) -/

theorem exec_grpdlySelect (w : Word) (s : State) (hs : busLive s = true) :
    exec (.grpdlySelect w) s = .next (settled (writeGrpdly w (served s))) := by
  change complete (onBus (writeGrpdly w) s) = _
  rw [onBus_of_busLive _ _ hs, complete]

theorem exec_grpdlyRead (s : State) (hs : busLive s = true) :
    exec .grpdlyRead s = .next (settled (answer (readGrpdly (served s)))) := by
  change complete (onBus (fun t => answer (readGrpdly t)) s) = _
  rw [onBus_of_busLive _ _ hs, complete]

/-- R237: the delay and the settle count in use of the selected stream of a channel with a valid forme. -/
theorem selectedDelay_of_valid {s : State} (hvalid : (s.fm.ch.get (chanOf s.cs.gdCh)).valid = true) :
    selectedDelay s =
      (if s.cs.gdOut then (s.fm.ch.get (chanOf s.cs.gdCh)).gd.get 2 else (s.fm.ch.get (chanOf s.cs.gdCh)).gd.get 0,
       BitVec.ofNat 16 (min 0xFFFF (if s.cs.gdOut then (s.fm.ch.get (chanOf s.cs.gdCh)).gd.get 3
         else (s.fm.ch.get (chanOf s.cs.gdCh)).gd.get 1).toNat)) := by
  rw [selectedDelay]; exact if_pos hvalid

theorem readGrpdly_of_low {s : State} (hpos : s.cs.gdPos = 0) :
    readGrpdly s =
      (lowWord (selectedDelay s).1, { s with cs := { s.cs with gdSnap := some (selectedDelay s), gdPos := 1 } }) := by
  rw [readGrpdly, if_pos hpos]

theorem readGrpdly_of_high {d : W32} {n : Word} {s : State} (hpos : s.cs.gdPos = 1) (hsnap : s.cs.gdSnap = some (d, n)) :
    readGrpdly s = (highWord d, { s with cs := { s.cs with gdPos := 2 } }) := by
  simp [readGrpdly, hpos, hsnap]

theorem readGrpdly_of_count {d : W32} {n : Word} {s : State} (hpos : s.cs.gdPos = 2)
    (hsnap : s.cs.gdSnap = some (d, n)) : readGrpdly s = (n, { s with cs := { s.cs with gdPos := 0 } }) := by
  simp [readGrpdly, hpos, hsnap]

/-! ## The statement -/

/-- Settles O42, position by position: what `readSmpdat` and `readGrpdly` answer and leave at each of them, with the parity check
by what a detector does to the event unit. -/
theorem sampleAndDelayReads : Obligations.SampleAndDelayReads := by
  unfold Obligations.SampleAndDelayReads
  refine ⟨fun s hs => ⟨?running, ?stopped, ?high, ?tag, ?nothing⟩, ?flush, ?select, ?delay, ?snapshot⟩
  case running =>
    intro r rest hpos hfifo hsink hx
    have hfound : parityFound 12 (recordTaken r rest (served s)) = bitOf s.sys.parity 12 := if_pos hx
    refine ⟨_, exec_smpdatRead_of_record hs hpos hfifo hsink, ?frame, ?held, fun hbad hheld => ?error,
      fun hgood hact => ?good⟩
    case frame =>
      refine (recordRead_eq_of_ev r rest (served s)).trans ?_
      rw [if_pos (by exact hx)]; rfl
    case held => exact (parityRead_held_self 12 _ (by decide)).trans hfound
    case error =>
      exact parityRead_sticky_of_begins 12 _ (by decide) (sysLive_of_busLive hs) (hfound.trans hbad) hheld
    case good => exact parityRead_ev_of_quiet 12 (recordTaken r rest (served s)) (hfound.trans hgood) hact
  case stopped =>
    intro r rest hpos hfifo hsink hx
    have hstop : ¬ s.sys.xrun = true := by simp [hx]
    have hfound : parityFound 12 (recordTaken r rest (served s)) = Config.parityError s.draws 12 := if_neg hstop
    refine ⟨_, exec_smpdatRead_of_record hs hpos hfifo hsink, ?frame, (parityRead_held_self 12 _ (by decide)).trans hfound⟩
    case frame =>
      refine (recordRead_eq_of_ev r rest (served s)).trans ?_
      rw [if_neg (by exact hstop)]; rfl
  case high =>
    intro r hpos hsnap
    rw [exec_smpdatRead s hs, readSmpdat_of_high (s := served s) hpos hsnap]; rfl
  case tag =>
    intro r hpos hsnap
    rw [exec_smpdatRead s hs, readSmpdat_of_tag (s := served s) hpos hsnap]; rfl
  case nothing =>
    intro hpos hnone
    have hraised : isSticky 0xD6 (edge (fmB 0 6) true (served s)) = true :=
      edge_sticky_of_fires 0xD6 (served s) (by decide) (sysLive_of_busLive hs)
    refine ⟨_, exec_smpdatRead_of_nothing hs hpos hnone, ?frame, hraised⟩
    case frame => exact congrArg (fun t => answer (0, t)) (edge_eq_of_ev (fmB 0 6) true (served s))
  case flush =>
    intro w s hs
    rw [exec_fifoFlush w s hs, writeSmpctl_flush]; rfl
  case select => exact exec_grpdlySelect
  case delay =>
    rintro d n s hs hvalid rfl rfl hpos
    rw [exec_grpdlyRead s hs, readGrpdly_of_low (s := served s) hpos, selectedDelay_of_valid (s := served s) hvalid]
    rfl
  case snapshot =>
    intro d n s hs hsnap
    refine ⟨fun hpos => ?high, fun hpos => ?count⟩
    case high => rw [exec_grpdlyRead s hs, readGrpdly_of_high (s := served s) hpos hsnap]; rfl
    case count => rw [exec_grpdlyRead s hs, readGrpdly_of_count (s := served s) hpos hsnap]; rfl

end Sys2Proof.Machine
end

section
/-! PROOFS. Copies of cases and their switches (O43): what it leaves when a case is made active, the entry that a kept code
adds to the log, then a lemma for each thing that a write of CASECTL can do and for the two ends of a switch. -/

namespace Sys2Proof.Machine

/-! ## Raising an event, as an update of the state -/

theorem raise_eq_of_ev (id : Nat) (s : State) : raise id s = { s with ev := (raise id s).ev } := by
  unfold raise; split <;> rfl

/-! ## A case made active (R226, R232, R236) -/

/-- The case record of a channel changed, and the channel's delays computed again. -/
def caseChanged (k : Chan) (f : CaseChan → CaseChan) (s : State) : State := recompute k (modCs k f s)

theorem caseChanged_cs_self (k : Chan) (f : CaseChan → CaseChan) (s : State) :
    (caseChanged k f s).cs.ch.get k = f (s.cs.ch.get k) := by simp [caseChanged, recompute]

theorem caseChanged_cs_of_ne {k j : Chan} (f : CaseChan → CaseChan) (s : State) (h : j ≠ k) :
    (caseChanged k f s).cs.ch.get j = s.cs.ch.get j := by simp [caseChanged, recompute, setCh_get_ne _ _ _ _ h]

/-- R236: the delays are those of the active forme with the case that is active after the change. -/
theorem caseChanged_fm_self (k : Chan) (f : CaseChan → CaseChan) (s : State) :
    (caseChanged k f s).fm.ch.get k = { s.fm.ch.get k with
      gd := gdTable (s.fm.ch.get k).active (activeCase (f (s.cs.ch.get k))) } := by simp [caseChanged, recompute]

theorem caseChanged_fm_of_ne {k j : Chan} (f : CaseChan → CaseChan) (s : State) (h : j ≠ k) :
    (caseChanged k f s).fm.ch.get j = s.fm.ch.get j := by simp [caseChanged, recompute, setCh_get_ne _ _ _ _ h]

/-- R226: the change completes a switch, which event 140h + 4k reports. -/
def switchCompleted (k : Chan) (f : CaseChan → CaseChan) (s : State) : State := raise (csE k 0) (caseChanged k f s)

@[simp] theorem switchCompleted_channels (k : Chan) (f : CaseChan → CaseChan) (s : State) :
    (switchCompleted k f s).cs = (caseChanged k f s).cs ∧ (switchCompleted k f s).fm = (caseChanged k f s).fm := by
  simp [switchCompleted]

theorem switchCompleted_eq_of_channels (k : Chan) (f : CaseChan → CaseChan) (s : State) :
    switchCompleted k f s = { s with
      ev := (switchCompleted k f s).ev, fm := { s.fm with ch := (switchCompleted k f s).fm.ch }
      cs := { s.cs with ch := (switchCompleted k f s).cs.ch } } := by
  rw [(switchCompleted_channels k f s).1, (switchCompleted_channels k f s).2]
  exact raise_eq_of_ev (csE k 0) (caseChanged k f s)

theorem switchCompleted_sticky (k : Chan) (f : CaseChan → CaseChan) (s : State) (hs : sysLive s = true) :
    isSticky (0x140 + 4 * k.val) (switchCompleted k f s) = true := by
  have hid : csE k 0 < 1024 := by have hk := k.isLt; simp only [csE, chanEvent]; omega
  exact raise_sticky_self (csE k 0) (caseChanged k f s) hid hs

/-! ## A kept entry joins the log (R385) -/

theorem logNow_of_room {code : Byte} {s : State} (data : W32) (hs : sysLive s = true) (hroom : nextPosition s < 4030) :
    logNow code data s = enterQueue (nowEntry code data s) s := by
  have hlog : logNow code data s = queueEntry (nowEntry code data s) s := by
    rw [logNow, logEntry]
    split
    case h_1 hp => simp [sysLive, hp] at hs
    case h_2 hp => simp [sysLive, hp] at hs
    case h_3 hp => simp [sysLive, hp] at hs
    case h_4 => rfl
  rw [hlog, queueEntry, fate, if_pos hroom]

theorem enterQueue_eq_of_kept {e : Entry} {s : State} (hkept : isKept e.code = true) :
    enterQueue e s = { s with imp := { s.imp with
      queue := (enterQueue e s).imp.queue, heldSteps := (enterQueue e s).imp.heldSteps } } := by
  rw [enterQueue, if_pos hkept]; split <;> rfl

/-- A kept entry comes behind all that the log has taken, whether it finds a place of the queue or waits for one. -/
theorem enterQueue_awaiting_of_kept {e : Entry} {s : State} (hkept : isKept e.code = true) :
    (enterQueue e s).imp.queue ++ (enterQueue e s).imp.heldSteps = s.imp.queue ++ s.imp.heldSteps ++ [e] := by
  rw [enterQueue, if_pos hkept]
  split
  case isTrue hfree =>
    rw [Bool.and_eq_true, List.isEmpty_iff] at hfree
    simp [hfree.1]
  case isFalse => simp

/-! ## A write of CASECTL (R248) -/

/-- Table 08-8: the RW fields of CASECTL as a word sets them. -/
def casectlFields (w : Word) (s : State) : State :=
  { s with cs := { s.cs with
    tgt := bitOf w 14, sel := BitVec.ofNat 2 (fieldOf w 12 2), xflen := BitVec.ofNat 4 (fieldOf w 8 4) } }

theorem chanOf_of_field {w : Word} {k : Chan} (hk : k.val = fieldOf w 12 2) :
    chanOf (BitVec.ofNat 2 (fieldOf w 12 2)) = k := by
  rw [← hk]; exact Fin.ext (Nat.mod_eq_of_lt k.isLt)

/-- The bits of SW and CPY lie in none of the RW fields. -/
theorem casectlFields_or {w m : Word} (hm : m = 0x8000 ∨ m = 0x0080) (s : State) :
    casectlFields (w ||| m) s = casectlFields w s := by
  have htgt : bitOf m 14 = false := by rcases hm with rfl | rfl <;> decide
  have hsel : fieldOf m 12 2 = 0 := by rcases hm with rfl | rfl <;> decide
  have hxflen : fieldOf m 8 4 = 0 := by rcases hm with rfl | rfl <;> decide
  rw [casectlFields, casectlFields, bitOf_or, htgt, Bool.or_false, fieldOf_or_of_fieldOf_eq_zero w m 12 2 hsel,
    fieldOf_or_of_fieldOf_eq_zero w m 8 4 hxflen]

theorem writeCasectl_eq {w : Word} {k : Chan} (hk : k.val = fieldOf w 12 2) (s : State) :
    writeCasectl w s =
      when (bitOf w 15) (caseSwitch k) (when (bitOf w 7) (caseCopy k) (casectlFields w s)) := by
  rw [← chanOf_of_field hk]; rfl

theorem exec_caseCopy {w : Word} {k : Chan} {s : State} (hs : busLive s = true) (hk : k.val = fieldOf w 12 2)
    (hsw : bitOf w 15 = false) :
    exec (.caseCopy w) s = .next (settled (caseCopy k (casectlFields w (served s)))) := by
  have hk' : k.val = fieldOf (w ||| 0x0080) 12 2 := by rw [hk, fieldOf_or_of_fieldOf_eq_zero w _ 12 2 (by decide)]
  have hcpy : bitOf (w ||| 0x0080) 7 = true := by rw [bitOf_or]; exact Bool.or_true _
  have hnosw : bitOf (w ||| 0x0080) 15 = false := by rw [bitOf_or, hsw]; rfl
  change complete (onBus (writeCasectl (w ||| 0x0080)) s) = _
  rw [onBus_of_busLive _ _ hs, complete, writeCasectl_eq hk', hcpy, hnosw, casectlFields_or (.inr rfl)]; rfl

theorem exec_caseSwitch {w : Word} {k : Chan} {s : State} (hs : busLive s = true) (hk : k.val = fieldOf w 12 2)
    (hcpy : bitOf w 7 = false) :
    exec (.caseSwitch w) s = .next (settled (caseSwitch k (casectlFields w (served s)))) := by
  have hk' : k.val = fieldOf (w ||| 0x8000) 12 2 := by rw [hk, fieldOf_or_of_fieldOf_eq_zero w _ 12 2 (by decide)]
  have hsw : bitOf (w ||| 0x8000) 15 = true := by rw [bitOf_or]; exact Bool.or_true _
  have hnocpy : bitOf (w ||| 0x8000) 7 = false := by rw [bitOf_or, hcpy]; rfl
  change complete (onBus (writeCasectl (w ||| 0x8000)) s) = _
  rw [onBus_of_busLive _ _ hs, complete, writeCasectl_eq hk', hnocpy, hsw, casectlFields_or (.inl rfl)]; rfl

/-- A bit that is set already. -/
theorem setBit_true_of_bitOf {n : Nat} {v : BitVec n} {i : Nat} (h : bitOf v i = true) : setBit v i true = v := by
  refine BitVec.eq_of_getLsbD_eq fun j _ => ?_
  refine (bitOf_setBit_true v i j).trans ?_
  by_cases hij : i = j
  case pos => subst hij; rw [h, Bool.true_or]; exact h.symm
  case neg => simp [bitOf, hij]

/-- A word with SW set is the same command whichever of CPY and SW names it. -/
theorem exec_caseCopy_of_switch {w : Word} (s : State) (hsw : bitOf w 15 = true) :
    exec (.caseCopy w) s = exec (.caseSwitch (w ||| 0x0080)) s := by
  have hset : w ||| 0x0080 ||| 0x8000 = w ||| 0x0080 :=
    setBit_true_of_bitOf (i := 15) (by rw [bitOf_or, hsw]; rfl)
  change complete (onBus (writeCasectl (w ||| 0x0080)) s) = complete (onBus (writeCasectl (w ||| 0x0080 ||| 0x8000)) s)
  rw [hset]

/-! ## Copies (R224) -/

/-- R224: the active case written to the inactive one, the active one's parity checked, and the copy in progress. -/
def copyBegun (k : Chan) (s : State) : State :=
  let t := modCs k (fun c => setCase (!c.act) (activeCase c) c) (readCase k s)
  { t with cs := { t.cs with copy := some { ch := k, lower := !(s.cs.ch.get k).act, left := 8 }, copyBit := true } }

theorem caseCopy_of_accepts {k : Chan} {s : State} (haccepts : caseAccepts k (!(s.cs.ch.get k).act) s = true)
    (hlegal : isLegal k s = true → inMakeready s = true) : caseCopy k s = copyBegun k s := by
  have hmay : (!isLegal k s || inMakeready s) = true := by
    cases hclass : isLegal k s
    case false => rfl
    case true => exact hlegal hclass
  rw [caseCopy, haccepts, hmay]; rfl

theorem caseCopy_of_refused {k : Chan} {s : State}
    (hrefused : caseAccepts k (!(s.cs.ch.get k).act) s = false ∨ (isLegal k s = true ∧ inMakeready s = false)) :
    caseCopy k s = raise (csE k 1) s := by
  rw [caseCopy]
  rcases hrefused with haccepts | ⟨hclass, hmr⟩
  · simp [haccepts]
  · simp [hclass, hmr]

theorem readCase_eq_of_ev (k : Chan) (s : State) :
    readCase k s = { s with ev := (readCase k s).ev, draws := (readCase k s).draws } := by
  rw [readCase, parityRead_eq_of_ev]

theorem copyBegun_eq_of_cs (k : Chan) (s : State) :
    copyBegun k s = { s with ev := (readCase k s).ev, draws := (readCase k s).draws, cs := { s.cs with
      ch := (copyBegun k s).cs.ch, copyBit := true
      copy := some { ch := k, lower := !(s.cs.ch.get k).act, left := 8 } } } := by
  rw [copyBegun, readCase_eq_of_ev]; rfl

theorem copyBegun_channels (k : Chan) (s : State) :
    (copyBegun k s).cs.ch = setCh s.cs.ch k (fun c => setCase (!c.act) (activeCase c) c) := by
  rw [copyBegun, readCase_eq_of_ev]; rfl

/-- The inactive case of a channel overwritten with its active one. -/
theorem setCase_inactive (c : CaseChan) :
    setCase (!c.act) (activeCase c) c = if c.act then { c with upper := c.lower } else { c with lower := c.upper } := by
  obtain ⟨upper, lower, act, rstf, fade⟩ := c
  cases act <;> rfl

/-! ## What a switch does (Table 08-2) -/

theorem caseSwitch_of_rest {k : Chan} {s : State} (hclass : isLegal k s = false) (hrest : atRest k s = true)
    (hload : loadBusy k s = false) (hstore : anyCaseStore s = false) :
    caseSwitch k s = switchCompleted k (fun c => { c with act := s.cs.tgt }) s := by
  have hok : switchRefused k s = false := by simp [switchRefused, hclass, hrest, hload, hstore]
  simp [caseSwitch, hclass, hok, hrest, switchCompleted, caseChanged]

theorem caseSwitch_of_running {k : Chan} {s : State} (hclass : isLegal k s = false) (hruns : atRest k s = false)
    (hload : loadBusy k s = false) (hstore : anyCaseStore s = false) (hfade : (s.cs.ch.get k).fade = none)
    (hlow : 4 ≤ s.cs.xflen.toNat) (hhigh : s.cs.xflen.toNat ≤ 12) :
    caseSwitch k s = modCs k (fun c => { c with
      fade := some { tgt := s.cs.tgt, xflen := s.cs.xflen.toNat, begun := false, frames := 0 } }) s := by
  have hok : switchRefused k s = false := by
    simp [switchRefused, fadeOpen, hclass, hruns, hload, hstore, hfade, hlow, hhigh]
  simp [caseSwitch, hclass, hok, hruns]

theorem caseSwitch_of_legal_locked {k : Chan} {s : State} (hclass : isLegal k s = true) (hmr : inMakeready s = false) :
    caseSwitch k s = raise 0x24 s := by
  simp [caseSwitch, hclass, hmr]

theorem caseSwitch_of_legal {k : Chan} {s : State} (hclass : isLegal k s = true) (hmr : inMakeready s = true)
    (hclosing : isClosing s = false) (hroom : legalRoom 1 s = true) (hrest : atRest k s = true)
    (hload : loadBusy k s = false) (hstore : anyCaseStore s = false) :
    caseSwitch k s = startCaseStore k s.cs.tgt true false s := by
  have hok : switchRefused k s = false := by simp [switchRefused, hclass, hrest, hload, hstore]
  simp [caseSwitch, hclass, hmr, hclosing, hroom, hok]

/-! ## The start of a case store (Sequence 08-1) -/

/-- The store that Sequence 08-1 begins: the trailer without its mark, the image, the trailer with it. -/
def caseStoreOf (k : Chan) (tgt switch preset : Bool) (s : State) : LegalStore :=
  let slot := nextPoolSlot s
  let image := caseBytes (caseOf (s.cs.ch.get k) tgt)
  let icrc := crc16 image
  let fcrc := crc16 (formeBytes (s.fm.ch.get k).active)
  { kind := .case k slot.1 icrc tgt switch preset
    pages := [(poolPage slot.1 + 32, trailerPage slot.2 k tgt false icrc fcrc)] ++
      pagesFrom (poolPage slot.1) (pieces 64 32 image) ++
        [(poolPage slot.1 + 32, trailerPage slot.2 k tgt true icrc fcrc)] }

theorem startCaseStore_eq (k : Chan) (tgt switch preset : Bool) (s : State) :
    startCaseStore k tgt switch preset s =
      beginStore (caseStoreOf k tgt switch preset s).kind (caseStoreOf k tgt switch preset s).pages
        (parityRead (caseParity k tgt) s) := rfl

theorem startCaseStore_nv (k : Chan) (tgt switch preset : Bool) (s : State) :
    (startCaseStore k tgt switch preset s).nv =
      { s.nv with legal := s.nv.legal ++ [caseStoreOf k tgt switch preset s] } := by
  have hnv : (beginChange (parityRead (caseParity k tgt) s)).nv = s.nv := by
    rw [parityRead_eq_of_ev]; simp
  simp only [startCaseStore_eq, beginStore, hnv]

theorem startCaseStore_cs (k : Chan) (tgt switch preset : Bool) (s : State) :
    (startCaseStore k tgt switch preset s).cs = s.cs := by
  have hcs : (beginChange (parityRead (caseParity k tgt) s)).cs = s.cs := by
    rw [parityRead_eq_of_ev]; simp
  simpa only [startCaseStore_eq, beginStore] using hcs

/-- R44: a legal change has begun the increment of its session. -/
theorem beginChange_incr (s : State) : (beginChange s).sl.incr ≠ .none := by
  rw [beginChange]; split
  case isTrue => simp
  case isFalse h => exact h

theorem startCaseStore_incr (k : Chan) (tgt switch preset : Bool) (s : State) :
    (startCaseStore k tgt switch preset s).sl.incr ≠ .none := by
  simpa only [startCaseStore_eq, beginStore] using beginChange_incr (parityRead (caseParity k tgt) s)

/-! ## The end of a case store (Sequence 08-1, step 7) -/

/-- What step 7 makes of the case record: the switch, and RSTF cleared (R231). -/
def caseStoreEnded (tgt switch : Bool) (c : CaseChan) : CaseChan :=
  { c with act := if switch then tgt else c.act, rstf := false }

/-- R229: the entry of a case store that ends now: the first page of its slot, and the CRC of its image. -/
def caseEntry (slot : Nat) (icrc : Word) (s : State) : Entry :=
  nowEntry 0x20 (BitVec.ofNat 32 ((600 + 33 * slot) * 65536 + icrc.toNat)) s

/-- Step 7 up to its entry: the store no longer runs, and where it was a switch's, that switch is complete. -/
def caseStoreTaken (k : Chan) (tgt switch : Bool) (l : LegalStore) (s : State) : State :=
  when switch (raise (csE k 0)) (caseChanged k (caseStoreEnded tgt switch) (endStore l s))

theorem caseStored_eq {k : Chan} {slot : Nat} {icrc : Word} {tgt switch preset : Bool} {l : LegalStore}
    (hkind : l.kind = .case k slot icrc tgt switch preset) (s : State) :
    caseStored l s = logNow 0x20 (BitVec.ofNat 32 ((600 + 33 * slot) * 65536 + icrc.toNat))
      (caseStoreTaken k tgt switch l s) := by
  rw [caseStored, hkind]; rfl

theorem caseStoreTaken_eq (k : Chan) (tgt switch : Bool) (l : LegalStore) (s : State) :
    caseStoreTaken k tgt switch l s = { caseChanged k (caseStoreEnded tgt switch) (endStore l s) with
      ev := (caseStoreTaken k tgt switch l s).ev } := by
  cases switch
  case false => rfl
  case true => exact raise_eq_of_ev (csE k 0) _

/-- Step 7 leaves what decides the position of its entry. -/
theorem caseStoreTaken_log (k : Chan) (tgt switch : Bool) (l : LegalStore) (s : State) :
    sysLive (caseStoreTaken k tgt switch l s) = sysLive s ∧
    nextPosition (caseStoreTaken k tgt switch l s) = nextPosition s := by
  rw [caseStoreTaken_eq]; exact ⟨rfl, rfl⟩

theorem exec_caseStoreComplete {l : LegalStore} {s : State} (hs : sysLive s = true)
    (hstore : committedStore isCaseKind s = some l) (hplaces : placesFree 1 s = true) :
    exec .caseStoreComplete s = .next (settled (caseStored l s)) := by
  change execCaseStoreComplete s = _
  rw [execCaseStoreComplete, if_pos hs, hstore]
  simp only [when_of_true _ _ hplaces, complete]

/-! ## The end of a fade (R232) -/

theorem exec_crossfadeEnd {k : Chan} {f : Fade} {s : State} (hs : sysLive s = true) (hfade : (s.cs.ch.get k).fade = some f)
    (hbegun : f.begun = true) (hframes : 2 ^ f.xflen ≤ f.frames) :
    exec (.crossfadeEnd k) s = .next (settled
      (switchCompleted k (fun c => { c with act := f.tgt, fade := none }) s)) := by
  have hdue : fadeDue k s = true := by simp [fadeDue, hfade, hbegun, hframes]
  change complete (when (sysLive s && fadeDue k s) (finishFade k) s) = _
  rw [when_of_true _ _ (by rw [hs, hdue]; rfl), complete, finishFade, hfade]; rfl

/-! ## The statement -/

/-- Settles O43: the write of CASECTL by what CPY and SW each do, the end of a store and of a fade by what is left when a case
is made active. -/
theorem caseCopiesAndSwitches : Obligations.CaseCopiesAndSwitches := by
  unfold Obligations.CaseCopiesAndSwitches
  refine ⟨fun w k s s1 hs hk hs1 => ?write, fun k slot icrc tgt switch preset l s hs hstore hkind hroom hplaces => ?stored,
    fun k f s hs hfade hbegun hframes => ?faded⟩
  case write =>
    obtain rfl : s1 = casectlFields w (served s) := hs1
    have hlive : sysLive (casectlFields w (served s)) = true := sysLive_of_busLive hs
    refine ⟨exec_caseCopy_of_switch s, fun hsw haccepts hlegal => ?copy, fun hsw hrefused => ?copyRefused,
      fun hcpy hclass hrest hload hstore => ?rest,
      fun hcpy hclass hruns hload hstore hfade hlow hhigh => ?running, fun hcpy hclass hmr => ?locked,
      fun hcpy hclass hmr hclosing hroom hrest hload hstore => ?legal⟩
    case copy =>
      have hbegun := caseCopy_of_accepts (s := casectlFields w (served s)) haccepts hlegal
      have hch : (copyBegun k (casectlFields w (served s))).cs.ch =
          setCh s.cs.ch k (fun c => setCase (!c.act) (activeCase c) c) := copyBegun_channels k _
      refine ⟨_, by rw [exec_caseCopy hs hk hsw, hbegun], copyBegun_eq_of_cs k _, ?self, fun j hj => ?others⟩
      case self => rw [hch, setCh_get, setCase_inactive]
      case others => rw [hch, setCh_get_ne _ _ _ _ hj]
    case copyRefused =>
      have hid : csE k 1 = 0x141 + 4 * k.val := by simp only [csE, chanEvent]; omega
      rw [exec_caseCopy hs hk hsw, caseCopy_of_refused (s := casectlFields w (served s)) hrefused, hid]
    case rest =>
      have hswitch := caseSwitch_of_rest (s := casectlFields w (served s)) hclass hrest hload hstore
      refine ⟨_, by rw [exec_caseSwitch hs hk hcpy, hswitch], switchCompleted_eq_of_channels k _ _, ?act,
        switchCompleted_sticky k _ _ hlive, ?delays, fun j hj => ⟨?record, ?forme⟩⟩
      case act => rw [(switchCompleted_channels k _ _).1, caseChanged_cs_self]; rfl
      case delays => rw [(switchCompleted_channels k _ _).2, caseChanged_fm_self]; rfl
      case record => rw [(switchCompleted_channels k _ _).1, caseChanged_cs_of_ne _ _ hj]; rfl
      case forme => rw [(switchCompleted_channels k _ _).2, caseChanged_fm_of_ne _ _ hj]; rfl
    case running =>
      have hxflen : (casectlFields w (served s)).cs.xflen.toNat = fieldOf w 8 4 :=
        Nat.mod_eq_of_lt (Nat.lt_of_le_of_lt hhigh (by decide))
      rw [exec_caseSwitch hs hk hcpy, caseSwitch_of_running (s := casectlFields w (served s)) hclass hruns hload hstore hfade
        (hxflen ▸ hlow) (hxflen ▸ hhigh), hxflen]
      rfl
    case locked =>
      rw [exec_caseSwitch hs hk hcpy, caseSwitch_of_legal_locked (s := casectlFields w (served s)) hclass hmr]
    case legal =>
      have hswitch :=
        caseSwitch_of_legal (s := casectlFields w (served s)) hclass hmr hclosing hroom hrest hload hstore
      exact ⟨startCaseStore k (bitOf w 14) true false (casectlFields w (served s)),
        caseStoreOf k (bitOf w 14) true false (casectlFields w (served s)), (nextPoolSlot s).1, (nextPoolSlot s).2, _, _,
        (exec_caseSwitch hs hk hcpy).trans (by rw [hswitch]; rfl), rfl, rfl, rfl, startCaseStore_nv k _ _ _ _, rfl,
        by rw [caseStoreOf, List.singleton_append]; rfl, startCaseStore_cs k _ _ _ _, startCaseStore_incr k _ _ _ _⟩
  case stored =>
    obtain ⟨hlive, hpos⟩ := caseStoreTaken_log k tgt switch l s
    have hkept : isKept 0x20 = true := by decide
    have hend : caseStored l s = enterQueue (caseEntry slot icrc s) (caseStoreTaken k tgt switch l s) := by
      rw [caseStored_eq hkind, logNow_of_room _ (hlive.trans hs) (by rw [hpos]; exact hroom), caseStoreTaken_eq]; rfl
    rw [exec_caseStoreComplete hs hstore hplaces, hend, enterQueue_eq_of_kept (e := caseEntry slot icrc s) hkept]
    refine ⟨_, rfl, ?frame, ?act, fun hswitch => ⟨?sticky, ?delays⟩, ?log⟩
    case frame => rw [caseStoreTaken_eq]; rfl
    case act => rw [caseStoreTaken_eq]; exact caseChanged_cs_self k _ (endStore l s)
    case sticky => subst hswitch; exact switchCompleted_sticky k _ (endStore l s) hs
    case delays =>
      subst hswitch; rw [caseStoreTaken_eq]
      exact congrArg FmChan.gd (caseChanged_fm_self k _ (endStore l s))
    case log =>
      refine (enterQueue_awaiting_of_kept (e := caseEntry slot icrc s) hkept).trans ?_
      rw [caseStoreTaken_eq]; rfl
  case faded =>
    refine ⟨_, exec_crossfadeEnd hs hfade hbegun hframes, ?frame, ?act, switchCompleted_sticky k _ s hs⟩
    case frame => rw [switchCompleted_eq_of_channels]
    case act => rw [(switchCompleted_channels k _ s).1, caseChanged_cs_self]

end Sys2Proof.Machine
end
